-- ==== Sys2Proof/Word.lean ====
section
/-! DEFINITION. The widths of the block's values (00_scope.md R10): the 8-bit bus byte, the 5-bit window offset, the
2-bit mode code, the 16-bit node address. Every value is unsigned (R13), and bit 0 is the least significant (R12). -/

namespace Sys2Proof

/-- A byte: the host data bus, a command, a frame byte (R10). -/
abbrev Byte := BitVec 8

/-- An offset in the 32-byte register window (R10, R60). -/
abbrev Offset := BitVec 5

/-- A mode code `m`: bit 0 is Line A, bit 1 is Line B (30_encoding.md R91). -/
abbrev ModeCode := BitVec 2

/-- A node address (R10, 40_codec.md R124). -/
abbrev Address := BitVec 16

/-- The 16-bit word that the notation of test programs uses for one host step (30_encoding.md R101). -/
abbrev HostWord := BitVec 16

end Sys2Proof
end

