-- ==== Sys2Proof/Syntax.lean ====
section
/-! DEFINITION. What the host can say to the block: the ten commands of the opcode table (30_encoding.md R87), the
names of the register window (R85), the host bus operations and the input record of one step (00_scope.md R15), and the
named reasons for which a command byte or a host-op word means nothing (R88, R101). -/

namespace Sys2Proof

/-- The commands: one constructor per row of spec/opcode_table.json. The only operand is SET_MODE's 2-bit code, of which
all four values name a mode (R86, 41_mode.md R165). -/
inductive Instr where
  | nop
  | pack
  | packPersist
  | unpack
  | reqRead
  | reqReset
  | setMode (m : ModeCode)
  | poll
  | gsend
  | clrErr
  deriving DecidableEq, Repr

/-- Why a command byte is reserved: the two cases (a) and (b) of R88. -/
inductive ReservedByte where
  /-- `op` is 0xA to 0xF. -/
  | opcode (op : BitVec 4)
  /-- `op` is assigned, and the operand bits are not those it allows. -/
  | operand (op arg : BitVec 4)
  deriving DecidableEq, Repr

/-- What a command byte decodes to. Decoding is total on the 256 byte values (R90). -/
inductive Decoded where
  | command (i : Instr)
  | reserved (why : ReservedByte)
  deriving DecidableEq, Repr

/-- The twelve field registers, in frame order (10_state.md R20, R23 to R33). -/
inductive FieldReg where
  | marker
  | addh
  | addl
  | parity
  | urate
  | arate
  | chan
  | txmode
  | pullup
  | wake
  | fec
  | power
  deriving DecidableEq, Repr

/-- The registers of the window, and `reserved` for an offset that holds none (R85, 20_memory.md R64). -/
inductive WinReg where
  | frm0
  | frm1
  | frm2
  | frm3
  | frm4
  | frm5
  | txlen
  | field (f : FieldReg)
  | mode
  | status
  | cmd
  | reserved
  deriving DecidableEq, Repr

/-- One bus operation: a byte read or a byte write at a window offset (R15, 20_memory.md R66). -/
inductive HostOp where
  | read (off : Offset)
  | write (off : Offset) (v : Byte)
  deriving DecidableEq, Repr, Inhabited

/-- The input record of one step (R15). `aux` is the level of the busy-status line: `true` is logic-high, clear to send
(42_flowgate.md R185). -/
structure StepInput where
  rst : Bool
  op : Option HostOp
  tick : Bool
  aux : Bool
  deriving DecidableEq, Repr, Inhabited

/-- Why a 16-bit host-op word is no word of the notation (R101): bits that its kind gives as 0 are set. -/
inductive WordError where
  /-- A read word with data bits set. -/
  | readData
  /-- A word of kind 10 (no bus operation) with offset or data bits set. -/
  | idleBits
  /-- A word of kind 11 (reset step) with offset or data bits set. -/
  | resetBits
  deriving DecidableEq, Repr

/-- What a host-op word stands for. -/
inductive DecodedWord where
  | input (i : StepInput)
  | malformed (why : WordError)
  deriving DecidableEq, Repr

end Sys2Proof
end

