-- ==== Sys2Proof/WellFormed.lean ====
section
/-! DEFINITION. Which terms the encodings admit: commands, input records that the program notation can write, and 16-bit
host-op words. -/

namespace Sys2Proof

/-- A command is well formed when its operand fits its field. SET_MODE's operand has the field's own width, and every code
names a mode, so every term of `Instr` is well formed (30_encoding.md R86, 41_mode.md R165: "no invalid mode"). -/
def Instr.wellFormed : Instr → Bool
  | .nop => true
  | .pack => true
  | .packPersist => true
  | .unpack => true
  | .reqRead => true
  | .reqReset => true
  | .setMode m => decide (m.toNat < 4)
  | .poll => true
  | .gsend => true
  | .clrErr => true

/-- An input record that a host-op word can stand for: a reset step names no bus operation, since the operation of a reset
step is ignored (30_encoding.md R101). -/
def StepInput.wellFormed (i : StepInput) : Bool := !(i.rst && i.op.isSome)

/-- Bits [15:14], the kind of a host-op word (R101). -/
def hostWordKind (w : HostWord) : BitVec 2 := w.extractLsb' 14 2

/-- Bits [12:8], the offset of a host-op word (R101). -/
def hostWordOffset (w : HostWord) : Offset := w.extractLsb' 8 5

/-- Bits [7:0], the data of a host-op word (R101). -/
def hostWordData (w : HostWord) : Byte := w.extractLsb' 0 8

/-- What is wrong with a host-op word, if anything: the data of a read is 0, and the words of kinds 10 and 11 have no
offset and no data (R101; DEDUCED, log 12, safe). -/
def hostWordProblem (w : HostWord) : Option WordError :=
  if hostWordKind w = 0b00#2 then
    if hostWordData w = 0 then none else some .readData
  else if hostWordKind w = 0b01#2 then none
  else if hostWordOffset w = 0 ∧ hostWordData w = 0 then none
  else if hostWordKind w = 0b10#2 then some .idleBits
  else some .resetBits

/-- A host-op word of the notation. -/
def hostWordWellFormed (w : HostWord) : Bool := (hostWordProblem w).isNone

end Sys2Proof
end

