-- ==== Sys2Proof/Decode.lean ====
section
/-! DEFINITION. The encodings of 30_encoding.md: the command byte (R86 to R90), the register map (R85), and the 16-bit
host-op word of the program notation (R101), each as a total decoder and, after it, an encoder written from the same
table. -/

namespace Sys2Proof

/-- Bits [7:4] of a command byte: the opcode (R86). -/
def cmdOp (v : Byte) : BitVec 4 := v.extractLsb' 4 4

/-- Bits [3:0] of a command byte: the operand (R86). -/
def cmdArg (v : Byte) : BitVec 4 := v.extractLsb' 0 4

/-- The opcodes other than 0x6 that name a command, each with no operand (R87). -/
def plainCommand (op : BitVec 4) : Option Instr :=
  match op.toNat with
  | 0x0 => some .nop
  | 0x1 => some .pack
  | 0x2 => some .packPersist
  | 0x3 => some .unpack
  | 0x4 => some .reqRead
  | 0x5 => some .reqReset
  | 0x7 => some .poll
  | 0x8 => some .gsend
  | 0x9 => some .clrErr
  | _ => none

/-- The command a byte written to CMD stands for, or why it is reserved (R90, R88). -/
def decode (v : Byte) : Decoded :=
  if cmdOp v = 0x6#4 then
    if (cmdArg v).extractLsb' 2 2 = 0b00#2 then .command (.setMode ((cmdArg v).extractLsb' 0 2))
    else .reserved (.operand (cmdOp v) (cmdArg v))
  else
    match plainCommand (cmdOp v) with
    | some i => if cmdArg v = 0x0#4 then .command i else .reserved (.operand (cmdOp v) (cmdArg v))
    | none => .reserved (.opcode (cmdOp v))

/-- The byte of a command: `{op, arg}` (R86, R87). -/
def encode : Instr → Byte
  | .nop => 0x0#4 ++ 0x0#4
  | .pack => 0x1#4 ++ 0x0#4
  | .packPersist => 0x2#4 ++ 0x0#4
  | .unpack => 0x3#4 ++ 0x0#4
  | .reqRead => 0x4#4 ++ 0x0#4
  | .reqReset => 0x5#4 ++ 0x0#4
  | .setMode m => 0x6#4 ++ (0b00#2 ++ m)
  | .poll => 0x7#4 ++ 0x0#4
  | .gsend => 0x8#4 ++ 0x0#4
  | .clrErr => 0x9#4 ++ 0x0#4

/-- The command that a byte decodes to, if it is one. -/
def Decoded.command? : Decoded → Option Instr
  | .command i => some i
  | .reserved _ => none

/-- The instruction that the decoder reads from the bits `w` of an opcode-table row of `nbits` bits. A command is exactly
one byte (R89), so nothing longer is one. -/
def decodeTableWord (nbits w : Nat) : Option Instr :=
  if nbits ≤ 8 ∧ w < 256 then (decode (BitVec.ofNat 8 w)).command? else none

/-- The register at a window offset (R85; reserved offsets: 20_memory.md R64). -/
def regAt (off : Offset) : WinReg :=
  match off.toNat with
  | 0x00 => .frm0
  | 0x01 => .frm1
  | 0x02 => .frm2
  | 0x03 => .frm3
  | 0x04 => .frm4
  | 0x05 => .frm5
  | 0x06 => .txlen
  | 0x08 => .field .marker
  | 0x09 => .field .addh
  | 0x0A => .field .addl
  | 0x0B => .field .parity
  | 0x0C => .field .urate
  | 0x0D => .field .arate
  | 0x0E => .field .chan
  | 0x0F => .field .txmode
  | 0x10 => .field .pullup
  | 0x11 => .field .wake
  | 0x12 => .field .fec
  | 0x13 => .field .power
  | 0x1C => .mode
  | 0x1D => .status
  | 0x1F => .cmd
  | _ => .reserved

/-- The offset of a field register (R85). -/
def fieldOffset : FieldReg → Offset
  | .marker => 0x08
  | .addh => 0x09
  | .addl => 0x0A
  | .parity => 0x0B
  | .urate => 0x0C
  | .arate => 0x0D
  | .chan => 0x0E
  | .txmode => 0x0F
  | .pullup => 0x10
  | .wake => 0x11
  | .fec => 0x12
  | .power => 0x13

/-- The offset of a register of the window; none for `reserved`, which stands for several offsets (R85). -/
def offsetOf : WinReg → Option Offset
  | .frm0 => some 0x00
  | .frm1 => some 0x01
  | .frm2 => some 0x02
  | .frm3 => some 0x03
  | .frm4 => some 0x04
  | .frm5 => some 0x05
  | .txlen => some 0x06
  | .field f => some (fieldOffset f)
  | .mode => some 0x1C
  | .status => some 0x1D
  | .cmd => some 0x1F
  | .reserved => none

/-- The offset of CMD (R46, R85). -/
def cmdOffset : Offset := 0x1F

/-- Bit [13] of a host-op word: a tick in the same step (R101). -/
def hostWordTick (w : HostWord) : Bool := w.getLsbD 13

/-- The bus operation of a host-op word, by its kind (R101). -/
def hostWordOp (w : HostWord) : Option HostOp :=
  if hostWordKind w = 0b00#2 then some (.read (hostWordOffset w))
  else if hostWordKind w = 0b01#2 then some (.write (hostWordOffset w) (hostWordData w))
  else none

/-- The input record a host-op word stands for, with the level `aux` of its `@aux=` suffix (R101). -/
def decodeHostWord (w : HostWord) (aux : Bool) : DecodedWord :=
  match hostWordProblem w with
  | some why => .malformed why
  | none =>
    .input { rst := hostWordKind w = 0b11#2, op := hostWordOp w, tick := hostWordTick w, aux := aux }

/-- A host-op word is laid out as `{kind, tick, offset, data}` (R101). -/
def packHostWord (kind : BitVec 2) (tick : Bool) (off : Offset) (v : Byte) : HostWord :=
  (kind.setWidth 16 <<< 14) ||| ((BitVec.ofBool tick).setWidth 16 <<< 13) ||| (off.setWidth 16 <<< 8) ||| v.setWidth 16

/-- The host-op word of an input record (R101). -/
def encodeHostWord (i : StepInput) : HostWord :=
  if i.rst then packHostWord 0b11#2 i.tick 0 0
  else
    match i.op with
    | some (.read off) => packHostWord 0b00#2 i.tick off 0
    | some (.write off v) => packHostWord 0b01#2 i.tick off v
    | none => packHostWord 0b10#2 i.tick 0 0

/-- The input record of a command pseudo-instruction: exactly one `WR CMD, <byte>` step (R102). -/
def commandStep (i : Instr) (tick aux : Bool) : StepInput :=
  { rst := false, op := some (.write cmdOffset (encode i)), tick := tick, aux := aux }

end Sys2Proof
end

