-- ==== Sys2Proof/Config.lean ====
section
/-! DEFINITION. What the spec leaves OPEN or free. Every constant marked opaque has no body: nothing can evaluate it or
prove a value of it, so a claim holds whatever it is. -/

namespace Sys2Proof.Config

/-- SETTLE_TICKS less one. -/
opaque extraTicks : Nat

/-- The parameter `SETTLE_TICKS` of the machine that `State.reset` describes: OPEN, at least 1 (00_scope.md R7, D10, D33;
DESIGN CHOICE, log 5, safe). A state carries its own parameter in `State.settleTicks`, so that claims hold for every
value. -/
def settleTicks : Nat := extraTicks + 1

/-- The parameter `BASE`: where the platform places the register window (R9, D21; log 10, safe). -/
opaque base : Nat

/-- What the data register at window offset `off` holds after the reset that draw number `n` counts: unspecified, a free
draw per register and per reset (R11, 10_state.md R51, D19; log 6, safe). -/
opaque resetDraw : Nat → Offset → Byte

/-- The input record that the environment supplies in the step that draw number `n` counts, where `State.inputs` lists
none: a free draw under no law (R15, 42_flowgate.md R186; DESIGN CHOICE, log 2, safe). -/
opaque envInput : Nat → StepInput

end Sys2Proof.Config
end

