-- ==== Sys2Proof/Machine/State.lean ====
section
/-! DEFINITION. The state of the block (10_state.md R20), as plain data, with the model's own fields for the parameter, the
coming inputs and the last output; its reset value (R51); and the two ways a step could stop. -/

namespace Sys2Proof.Machine

/-- The frame bytes FRM[0..5], byte 0 first on the wire (R22, 20_memory.md R70). -/
structure Frame where
  b0 : Byte
  b1 : Byte
  b2 : Byte
  b3 : Byte
  b4 : Byte
  b5 : Byte
  deriving DecidableEq, Repr

/-- The twelve field registers, each of its exact width (R23 to R34; log 17). -/
structure Fields where
  marker : Byte
  addh : Byte
  addl : Byte
  parity : BitVec 2
  urate : BitVec 3
  arate : BitVec 3
  chan : Byte
  txmode : BitVec 1
  pullup : BitVec 1
  wake : BitVec 3
  fec : BitVec 1
  power : BitVec 2
  deriving DecidableEq, Repr

/-- The stored STATUS flags. SETTLING is not stored (R37, R38). -/
structure StatusFlags where
  valid : Bool
  clear : Bool
  grant : Bool
  decerr : Bool
  busyerr : Bool
  cmderr : Bool
  deriving DecidableEq, Repr

/-- The output record of one step (00_scope.md R15): the byte of a read, absent in a step that reads nothing (DESIGN
CHOICE, log 4, safe), and the grant pulse. The mode lines are views of MODE (R50). -/
structure StepOut where
  rdata : Option Byte
  txGrant : Bool
  deriving DecidableEq, Repr

/-- The state of the machine. `frm` to `flags` are the block's architectural state and all of it (R20); the last four
fields are the model's own (log 1, 4, 5, 7). -/
structure State where
  /-- FRM[0..5] (R22). -/
  frm : Frame
  /-- The field registers (R23 to R33). -/
  fields : Fields
  /-- TXLEN: the length of the request last built (R35). -/
  txlen : BitVec 3
  /-- MODE: the mode code last entered, which drives the two lines (R36). -/
  mode : ModeCode
  /-- SETTLE_CNT: ticks still needed before SETTLING falls (R47). -/
  settleCnt : Nat
  /-- The stored STATUS flags (R37). -/
  flags : StatusFlags
  /-- The parameter SETTLE_TICKS, which no step changes (00_scope.md R7; log 5). -/
  settleTicks : Nat
  /-- The input records of the coming steps, the head for the next one (R15, R49; log 1). -/
  inputs : List StepInput
  /-- The index of the next free draw (log 7). -/
  draw : Nat
  /-- The output record of the last step (R15, R50; log 4). -/
  out : StepOut
  deriving DecidableEq, Repr

/-- The block has no traps, exceptions or fault states (60_exceptions.md R205), so no reason to stop exists: nothing raises
a fault (DEDUCED, log 15, safe). -/
inductive Fault where
  deriving DecidableEq, Repr

/-- Why the model would give an instruction no meaning. -/
inductive Refusal where
  /-- Raised by an arm of `exec` whose instruction has no meaning yet; every instruction has one, so nothing raises it
  (safe). -/
  | notModelled (mnemonic : String)
  deriving DecidableEq, Repr

/-- All STATUS flags 0 (R51). -/
def StatusFlags.allClear : StatusFlags :=
  { valid := false, clear := false, grant := false, decerr := false, busyerr := false, cmderr := false }

/-- The frame bytes after the reset of draw number `n`: unspecified (R51, 00_scope.md R11; log 6). -/
def Frame.drawn (n : Nat) : Frame :=
  { b0 := Config.resetDraw n 0x00
    b1 := Config.resetDraw n 0x01
    b2 := Config.resetDraw n 0x02
    b3 := Config.resetDraw n 0x03
    b4 := Config.resetDraw n 0x04
    b5 := Config.resetDraw n 0x05 }

/-- The field registers after the reset of draw number `n`: unspecified within each register's width (R51, R34; log 6). -/
def Fields.drawn (n : Nat) : Fields :=
  { marker := Config.resetDraw n 0x08
    addh := Config.resetDraw n 0x09
    addl := Config.resetDraw n 0x0A
    parity := (Config.resetDraw n 0x0B).setWidth 2
    urate := (Config.resetDraw n 0x0C).setWidth 3
    arate := (Config.resetDraw n 0x0D).setWidth 3
    chan := Config.resetDraw n 0x0E
    txmode := (Config.resetDraw n 0x0F).setWidth 1
    pullup := (Config.resetDraw n 0x10).setWidth 1
    wake := (Config.resetDraw n 0x11).setWidth 3
    fec := (Config.resetDraw n 0x12).setWidth 1
    power := (Config.resetDraw n 0x13).setWidth 2 }

/-- The output record of a reset step (60_exceptions.md R210). -/
def StepOut.ofReset : StepOut := { rdata := some 0x00, txGrant := false }

/-- The machine right after reset (R51): Normal, settling for SETTLE_TICKS, no request, no flag; the data registers hold
free draws; no input is placed. -/
def State.reset : State where
  frm := Frame.drawn 0
  fields := Fields.drawn 0
  txlen := 0
  mode := 0b00
  settleCnt := Config.settleTicks
  flags := StatusFlags.allClear
  settleTicks := Config.settleTicks
  inputs := []
  draw := 1
  out := StepOut.ofReset

/-- FRM <- f. -/
def State.setFrm (s : State) (f : Frame) : State := { s with frm := f }
/-- The field registers <- f. -/
def State.setFields (s : State) (f : Fields) : State := { s with fields := f }
/-- TXLEN <- n. -/
def State.setTxlen (s : State) (n : BitVec 3) : State := { s with txlen := n }
/-- MODE <- m. -/
def State.setMode (s : State) (m : ModeCode) : State := { s with mode := m }
/-- SETTLE_CNT <- n. -/
def State.setSettleCnt (s : State) (n : Nat) : State := { s with settleCnt := n }
/-- The stored STATUS flags <- f. -/
def State.setFlags (s : State) (f : StatusFlags) : State := { s with flags := f }
/-- The step's output record <- o. -/
def State.setOut (s : State) (o : StepOut) : State := { s with out := o }
/-- The environment's part: the coming inputs and the draw counter. -/
def State.setEnv (s : State) (ins : List StepInput) (n : Nat) : State := { s with inputs := ins, draw := n }

/-- `mode_a`, Line A: MODE[0] at every step (R50, 41_mode.md R164). -/
def State.modeA (s : State) : Bool := s.mode.getLsbD 0

/-- `mode_b`, Line B: MODE[1] at every step (R50, 41_mode.md R164). -/
def State.modeB (s : State) : Bool := s.mode.getLsbD 1

end Sys2Proof.Machine
end

