-- ==== Sys2Proof/Machine/Operands.lean ====
section
/-! DEFINITION. The operands of the commands and the pure functions they compute: the codec functions of 40_codec.md R120 to
R127, the sentinels (30_encoding.md R96), the input of the step and its aux sample (42_flowgate.md R186), the grant
condition (R189), and the request bytes on the wire (20_memory.md R70). -/

namespace Sys2Proof.Machine

/-- 0xC0, the save_marker of a valid persist frame (R96; UNVERIFIED literal, I9, log 9). -/
def persistSentinel : Byte := 0xC0

/-- 0xC1, sent three times to request a read-back (R96; UNVERIFIED literal, I9, log 9). -/
def readSentinel : Byte := 0xC1

/-- 0xC4, sent three times to request a reset (R96; UNVERIFIED literal, I9, log 9). -/
def resetSentinel : Byte := 0xC4

/-- The code of Program mode, both lines high (30_encoding.md R91). -/
def programMode : ModeCode := 0b11

/-- The speed byte of parity, UART rate and air rate (R120, R93). -/
def packSpeed (p : BitVec 2) (u a : BitVec 3) : Byte :=
  (p.setWidth 8 <<< 6) ||| (u.setWidth 8 <<< 3) ||| a.setWidth 8

/-- Parity `b[7:6]`, UART rate `b[5:3]`, air rate `b[2:0]` (R121). -/
def unpackSpeed (b : Byte) : BitVec 2 × BitVec 3 × BitVec 3 :=
  (b.extractLsb' 6 2, b.extractLsb' 3 3, b.extractLsb' 0 3)

/-- The options byte (R122, R94; the layout is D4, from general knowledge: log 9). -/
def packOptions (t pu : BitVec 1) (w : BitVec 3) (f : BitVec 1) (pw : BitVec 2) : Byte :=
  (t.setWidth 8 <<< 7) ||| (pu.setWidth 8 <<< 6) ||| (w.setWidth 8 <<< 3) ||| (f.setWidth 8 <<< 2) |||
    pw.setWidth 8

/-- `b[7]`, `b[6]`, `b[5:3]`, `b[2]`, `b[1:0]` (R123). -/
def unpackOptions (b : Byte) : BitVec 1 × BitVec 1 × BitVec 3 × BitVec 1 × BitVec 2 :=
  (b.extractLsb' 7 1, b.extractLsb' 6 1, b.extractLsb' 3 3, b.extractLsb' 2 1, b.extractLsb' 0 2)

/-- The node address of two bytes, big-endian (R124, R69). -/
def addr16 (hi lo : Byte) : Address := (hi.setWidth 16 <<< 8) ||| lo.setWidth 16

/-- The two bytes of a node address (R124). -/
def split16 (a : Address) : Byte × Byte := (a.extractLsb' 8 8, a.extractLsb' 0 8)

/-- The frame of a record (R125, R92). -/
def pack (rec : Fields) : Frame :=
  { b0 := rec.marker
    b1 := rec.addh
    b2 := rec.addl
    b3 := packSpeed rec.parity rec.urate rec.arate
    b4 := rec.chan
    b5 := packOptions rec.txmode rec.pullup rec.wake rec.fec rec.power }

/-- The record of a frame (R126). -/
def unpack (frm : Frame) : Fields :=
  { marker := frm.b0
    addh := frm.b1
    addl := frm.b2
    parity := (unpackSpeed frm.b3).1
    urate := (unpackSpeed frm.b3).2.1
    arate := (unpackSpeed frm.b3).2.2
    chan := frm.b4
    txmode := (unpackOptions frm.b5).1
    pullup := (unpackOptions frm.b5).2.1
    wake := (unpackOptions frm.b5).2.2.1
    fec := (unpackOptions frm.b5).2.2.2.1
    power := (unpackOptions frm.b5).2.2.2.2 }

/-- The frame PACK_PERSIST builds: `pack` with the marker forced to the persist sentinel (R131, R98). -/
def packPersistFrame (rec : Fields) : Frame := { pack rec with b0 := persistSentinel }

/-- The frame after a 3-byte request of sentinel `b`: FRM[3..5] keep their bytes (R133, R134, R97, R99). -/
def shortRequest (b : Byte) (frm : Frame) : Frame := { frm with b0 := b, b1 := b, b2 := b }

/-- A frame is a valid persist frame exactly when its marker is the persist sentinel (R127). -/
def frameValid (frm : Frame) : Bool := frm.b0 == persistSentinel

/-- The bytes of a frame in wire order (20_memory.md R70). -/
def Frame.toList (frm : Frame) : List Byte := [frm.b0, frm.b1, frm.b2, frm.b3, frm.b4, frm.b5]

/-- The request last built, as the byte sequence the host sends: `[FRM[0], ..., FRM[TXLEN-1]]` (R70). -/
def State.requestBytes (s : State) : List Byte := s.frm.toList.take s.txlen.toNat

/-- The input record of the next step: the first one placed, or the environment's free draw where none is (R15; log 1
and 2). -/
def State.nextInput (s : State) : StepInput :=
  match s.inputs with
  | [] => Config.envInput s.draw
  | i :: _ => i

/-- `sample_aux()`: the level of the busy-status line in this step (R186, 00_scope.md R14). -/
def State.sampleAux (s : State) : Bool := s.nextInput.aux

/-- The grant condition (R189): line high, not settling, and not in Program mode. -/
def grantOk (a : Bool) (cnt : Nat) (m : ModeCode) : Bool := a && cnt == 0 && m != programMode

end Sys2Proof.Machine
end

