-- ==== Sys2Proof/Machine/Flags.lean ====
section
/-! DEFINITION. The STATUS register (10_state.md R37 to R45): the derived SETTLING bit, the byte a host reads, and each way
a flag is written (60_exceptions.md R206, R207, R212). -/

namespace Sys2Proof.Machine

/-- `STATUS.SETTLING`: `SETTLE_CNT != 0`, never stored (R38). -/
def State.settling (s : State) : Bool := s.settleCnt != 0

/-- `{0, CMDERR, BUSYERR, DECERR, GRANT, CLEAR, VALID, SETTLING}`, with bit 7 always 0 (R37, R45, 20_memory.md R62). -/
def statusByteOf (settling : Bool) (f : StatusFlags) : Byte :=
  0b0#1 ++ (BitVec.ofBool f.cmderr ++ (BitVec.ofBool f.busyerr ++ (BitVec.ofBool f.decerr ++
    (BitVec.ofBool f.grant ++ (BitVec.ofBool f.clear ++ (BitVec.ofBool f.valid ++ BitVec.ofBool settling))))))

/-- The byte a host reads from STATUS (R37). -/
def State.statusByte (s : State) : Byte := statusByteOf s.settling s.flags

/-- The error causes; the code of each is its STATUS bit (R206). -/
inductive ErrorCause where
  | decerr
  | busyerr
  | cmderr
  deriving DecidableEq, Repr

/-- The flags after `flag(X)`: sticky bit X is 1, every other flag as before (R207, 00_scope.md R14). -/
def StatusFlags.raise (f : StatusFlags) : ErrorCause → StatusFlags
  | .decerr => { f with decerr := true }
  | .busyerr => { f with busyerr := true }
  | .cmderr => { f with cmderr := true }

/-- `flag(X)`: what an error does, in place of a trap (R205, R207, R211). -/
def State.flagError (s : State) (e : ErrorCause) : State := s.setFlags (s.flags.raise e)

/-- The flags after UNPACK of a frame whose marker check gave `ok` (R132): VALID always, DECERR set on failure and
otherwise unchanged. -/
def StatusFlags.afterUnpack (f : StatusFlags) (ok : Bool) : StatusFlags :=
  { f with valid := ok, decerr := f.decerr || !ok }

/-- The flags after a POLL that sampled `a` (42_flowgate.md R187): GRANT is unchanged. -/
def StatusFlags.afterPoll (f : StatusFlags) (a : Bool) : StatusFlags := { f with clear := a }

/-- The flags after a GSEND that sampled `a` and gave verdict `g` (R188). -/
def StatusFlags.afterGsend (f : StatusFlags) (a g : Bool) : StatusFlags := { f with clear := a, grant := g }

/-- The flags after CLR_ERR (40_codec.md R135): VALID, CLEAR and GRANT are unchanged. -/
def StatusFlags.clearErrors (f : StatusFlags) : StatusFlags :=
  { f with decerr := false, busyerr := false, cmderr := false }

end Sys2Proof.Machine
end

