-- ==== Sys2Proof/Machine/Ops.lean ====
section
/-! DEFINITION. The shared operations: reading and writing the register window (20_memory.md R62 to R66), building a
request (40_codec.md), entering a mode and the tick (41_mode.md R161, R162), reset (70_reset_and_hazards.md R230), and what
a step does around its host operation (60_exceptions.md R210).

The block has no trap entry and no trap return (R211, R212): what an error does is `State.flagError` of Flags.lean. -/

namespace Sys2Proof.Machine

/-- A field register as a byte: the bits above its width read as 0 (10_state.md R34, R62). -/
def Fields.read (r : Fields) : FieldReg → Byte
  | .marker => r.marker
  | .addh => r.addh
  | .addl => r.addl
  | .parity => r.parity.setWidth 8
  | .urate => r.urate.setWidth 8
  | .arate => r.arate.setWidth 8
  | .chan => r.chan
  | .txmode => r.txmode.setWidth 8
  | .pullup => r.pullup.setWidth 8
  | .wake => r.wake.setWidth 8
  | .fec => r.fec.setWidth 8
  | .power => r.power.setWidth 8

/-- A write of byte `v` to a field register keeps its low `W(F)` bits: `v & ((1 << W(F)) - 1)` (R34, R63). -/
def Fields.write (r : Fields) (f : FieldReg) (v : Byte) : Fields :=
  match f with
  | .marker => { r with marker := v }
  | .addh => { r with addh := v }
  | .addl => { r with addl := v }
  | .parity => { r with parity := v.setWidth 2 }
  | .urate => { r with urate := v.setWidth 3 }
  | .arate => { r with arate := v.setWidth 3 }
  | .chan => { r with chan := v }
  | .txmode => { r with txmode := v.setWidth 1 }
  | .pullup => { r with pullup := v.setWidth 1 }
  | .wake => { r with wake := v.setWidth 3 }
  | .fec => { r with fec := v.setWidth 1 }
  | .power => { r with power := v.setWidth 2 }

/-- `W(F)`, the width of a field register (R34). -/
def fieldWidth : FieldReg → Nat
  | .marker => 8
  | .addh => 8
  | .addl => 8
  | .parity => 2
  | .urate => 3
  | .arate => 3
  | .chan => 8
  | .txmode => 1
  | .pullup => 1
  | .wake => 3
  | .fec => 1
  | .power => 2

/-- What a host reads from a register: CMD and reserved offsets read as 0x00 (R62, R64, R65). -/
def State.readReg (s : State) : WinReg → Byte
  | .frm0 => s.frm.b0
  | .frm1 => s.frm.b1
  | .frm2 => s.frm.b2
  | .frm3 => s.frm.b3
  | .frm4 => s.frm.b4
  | .frm5 => s.frm.b5
  | .txlen => s.txlen.setWidth 8
  | .field f => s.fields.read f
  | .mode => s.mode.setWidth 8
  | .status => s.statusByte
  | .cmd => 0x00
  | .reserved => 0x00

/-- A host write to a register other than CMD: data registers take it, read-only registers and reserved offsets ignore it
(R63 to R65). CMD holds no value (R46); what a write to it does is `executeByte` of Bus.lean. -/
def State.writeReg (s : State) (r : WinReg) (v : Byte) : State :=
  match r with
  | .frm0 => s.setFrm { s.frm with b0 := v }
  | .frm1 => s.setFrm { s.frm with b1 := v }
  | .frm2 => s.setFrm { s.frm with b2 := v }
  | .frm3 => s.setFrm { s.frm with b3 := v }
  | .frm4 => s.setFrm { s.frm with b4 := v }
  | .frm5 => s.setFrm { s.frm with b5 := v }
  | .txlen => s
  | .field f => s.setFields (s.fields.write f v)
  | .mode => s
  | .status => s
  | .cmd => s
  | .reserved => s

/-- `MemRead(off, 1)`: the byte a host read returns; it changes no state (R62). -/
def State.busRead (s : State) (off : Offset) : Byte := s.readReg (regAt off)

/-- The platform address of a window offset (R9, R61). -/
def windowAddress (off : Offset) : Nat := Config.base + off.toNat

/-- The window offset at a platform address; none outside the window (R60, R61). -/
def windowOffset (a : Nat) : Option Offset :=
  if Config.base ≤ a ∧ a < Config.base + 32 then some (BitVec.ofNat 5 (a - Config.base)) else none

/-- Build a request: the frame bytes and the request's length (40_codec.md R130, R131, R133, R134). -/
def State.loadRequest (s : State) (f : Frame) (n : BitVec 3) : State := (s.setFrm f).setTxlen n

/-- Enter a mode and start its settle delay: both lines change in this step (41_mode.md R161, R164). -/
def State.enterMode (s : State) (m : ModeCode) : State := (s.setMode m).setSettleCnt s.settleTicks

/-- SET_MODE's effect: refused with BUSYERR and no other change while settling, accepted otherwise (R161). -/
def State.requestMode (s : State) (m : ModeCode) : State :=
  if s.settling then s.flagError .busyerr else s.enterMode m

/-- `sample_aux()` into CLEAR (42_flowgate.md R187). -/
def State.poll (s : State) : State := s.setFlags (s.flags.afterPoll s.sampleAux)

/-- Sample, verdict and pulse in one atomic step (R188, R191). -/
def State.gatedSend (s : State) : State :=
  let a := s.sampleAux
  let g := grantOk a s.settleCnt s.mode
  (s.setFlags (s.flags.afterGsend a g)).setOut { s.out with txGrant := g }

/-- UNPACK's effect (40_codec.md R132): every field register, then VALID and DECERR. -/
def State.unpackFrame (s : State) : State :=
  (s.setFields (unpack s.frm)).setFlags (s.flags.afterUnpack (frameValid s.frm))

/-- Whether a command is a SET_MODE. -/
def isSetMode : Instr → Bool
  | .nop => false
  | .pack => false
  | .packPersist => false
  | .unpack => false
  | .reqRead => false
  | .reqReset => false
  | .setMode _ => true
  | .poll => false
  | .gsend => false
  | .clrErr => false

/-- The command that a host operation executes: the legal byte of a write to CMD (30_encoding.md R86, R90). -/
def commandOf : Option HostOp → Option Instr
  | some (.write off v) => if off = cmdOffset then (decode v).command? else none
  | some (.read _) => none
  | none => none

/-- `setmode_accepted`: the step's operation is a SET_MODE and the block is not settling (R161, R210). -/
def State.acceptsMode (s : State) (op : Option HostOp) : Bool :=
  match commandOf op with
  | some i => isSetMode i && !s.settling
  | none => false

/-- A step's outputs before its host operation: no read byte, no grant (R15, R191). -/
def State.beginStep (s : State) : State := s.setOut { rdata := none, txGrant := false }

/-- `apply_tick` (41_mode.md R162): a tick decrements a non-zero counter, but not in the step of an accepted SET_MODE. -/
def State.applyTick (s : State) (tick accepted : Bool) : State :=
  if tick && !accepted then s.setSettleCnt (s.settleCnt - 1) else s

/-- The step's input record is used up and the next free draw is the next one (log 1, 7). -/
def State.endStep (s : State) : State := s.setEnv s.inputs.tail (s.draw + 1)

/-- A reset step (70_reset_and_hazards.md R230): every state element at its reset value (10_state.md R51), the step's
operation and tick ignored, `rdata` 0x00 and no grant. -/
def State.takeReset (s : State) : State where
  frm := Frame.drawn s.draw
  fields := Fields.drawn s.draw
  txlen := 0
  mode := 0b00
  settleCnt := s.settleTicks
  flags := StatusFlags.allClear
  settleTicks := s.settleTicks
  inputs := s.inputs
  draw := s.draw
  out := StepOut.ofReset

/-- Go on with `f` from a next state; a fault or a refusal stays what it is. -/
def afterNext (o : Host.Outcome State Fault Refusal) (f : State → State) : Host.Outcome State Fault Refusal :=
  match o with
  | .next s => .next (f s)
  | .fault r => .fault r
  | .refused r => .refused r

end Sys2Proof.Machine
end

