-- ==== Sys2Proof/Machine/Codec.lean ====
section
/-! DEFINITION. The codec commands (40_codec.md R129 to R135). None of them reads MODE or SETTLE_CNT (R136). -/

namespace Sys2Proof.Machine

/-- NOP: no effect (R129). -/
def execNop (s : State) : Host.Outcome State Fault Refusal := .next s

/-- PACK: the fields into FRM, the marker verbatim; TXLEN 6 (R130). -/
def execPack (s : State) : Host.Outcome State Fault Refusal := .next (s.loadRequest (pack s.fields) 6)

/-- PACK_PERSIST: as PACK with FRM[0] forced to the persist sentinel; F_MARKER keeps its value (R131). -/
def execPackPersist (s : State) : Host.Outcome State Fault Refusal :=
  .next (s.loadRequest (packPersistFrame s.fields) 6)

/-- UNPACK: FRM into the fields, with the marker check (R132). -/
def execUnpack (s : State) : Host.Outcome State Fault Refusal := .next s.unpackFrame

/-- REQ_READ: the config-read request in FRM[0..2]; TXLEN 3 (R133). -/
def execReqRead (s : State) : Host.Outcome State Fault Refusal :=
  .next (s.loadRequest (shortRequest readSentinel s.frm) 3)

/-- REQ_RESET: the reset request in FRM[0..2]; TXLEN 3 (R134). -/
def execReqReset (s : State) : Host.Outcome State Fault Refusal :=
  .next (s.loadRequest (shortRequest resetSentinel s.frm) 3)

/-- CLR_ERR: the sticky error flags to 0 (R135). -/
def execClrErr (s : State) : Host.Outcome State Fault Refusal := .next (s.setFlags s.flags.clearErrors)

end Sys2Proof.Machine
end

