-- ==== Sys2Proof/Machine/FlowGate.lean ====
section
/-! DEFINITION. The AuxFlowGate's commands (42_flowgate.md R187, R188). -/

namespace Sys2Proof.Machine

/-- POLL: CLEAR <- the sampled level, in every mode and while settling (R187). -/
def execPoll (s : State) : Host.Outcome State Fault Refusal := .next s.poll

/-- GSEND: CLEAR <- the sampled level, GRANT <- the verdict, tx_grant pulsed on a grant; no error flag (R188). -/
def execGsend (s : State) : Host.Outcome State Fault Refusal := .next s.gatedSend

end Sys2Proof.Machine
end

