-- ==== Sys2Proof/Machine/ModeControl.lean ====
section
/-! DEFINITION. The ModeController's command (41_mode.md R161). The tick is `State.applyTick` of Ops.lean (R162). -/

namespace Sys2Proof.Machine

/-- SET_MODE m: refused with BUSYERR while settling; otherwise MODE <- m and the settle delay starts (R161). -/
def execSetMode (m : ModeCode) (s : State) : Host.Outcome State Fault Refusal := .next (s.requestMode m)

end Sys2Proof.Machine
end

