-- ==== Sys2Proof/Machine/Dispatch.lean ====
section
/-! DEFINITION. The dispatch: one arm per command, each one direct call of its meaning. -/

namespace Sys2Proof.Machine

def exec (i : Instr) (s : State) : Host.Outcome State Fault Refusal :=
  match i with
  | .nop => Sys2Proof.Machine.execNop s
  | .pack => Sys2Proof.Machine.execPack s
  | .packPersist => Sys2Proof.Machine.execPackPersist s
  | .unpack => Sys2Proof.Machine.execUnpack s
  | .reqRead => Sys2Proof.Machine.execReqRead s
  | .reqReset => Sys2Proof.Machine.execReqReset s
  | .setMode m => Sys2Proof.Machine.execSetMode m s
  | .poll => Sys2Proof.Machine.execPoll s
  | .gsend => Sys2Proof.Machine.execGsend s
  | .clrErr => Sys2Proof.Machine.execClrErr s

end Sys2Proof.Machine
end

