-- ==== Sys2Proof/Machine/Bus.lean ====
section
/-! DEFINITION. What one host operation does (20_memory.md R62, R63), and what the step that holds it does
(60_exceptions.md R210). -/

namespace Sys2Proof.Machine

/-- `execute(decode(v))`: a legal byte runs its command; a reserved byte sets CMDERR and has no other effect
(30_encoding.md R88, R90). -/
def executeByte (v : Byte) (s : State) : Host.Outcome State Fault Refusal :=
  match decode v with
  | .command i => exec i s
  | .reserved _ => .next (s.flagError .cmderr)

/-- `MemWrite(off, 1, v)` (R63): a write to CMD executes a command, any other write goes to the register. -/
def busWrite (off : Offset) (v : Byte) (s : State) : Host.Outcome State Fault Refusal :=
  if off = cmdOffset then executeByte v s else .next (s.writeReg (regAt off) v)

/-- `perform` (R210): the step's host operation, if any. A read's byte is the step's output (R62). -/
def perform (op : Option HostOp) (s : State) : Host.Outcome State Fault Refusal :=
  match op with
  | none => .next s
  | some (.read off) => .next (s.setOut { s.out with rdata := some (s.busRead off) })
  | some (.write off v) => busWrite off v s

/-- A step without reset (R210): the host operation first, then the tick. -/
def hostStep (i : StepInput) (s : State) : Host.Outcome State Fault Refusal :=
  afterNext (perform i.op s.beginStep) fun t => (t.applyTick i.tick (s.acceptsMode i.op)).endStep

/-- One step on its input record: reset takes priority over everything (R210). -/
def stepOn (i : StepInput) (s : State) : Host.Outcome State Fault Refusal :=
  if i.rst then .next s.takeReset.endStep else hostStep i s

/-- The input record that writes the bits `w` to CMD in the next step. The step's tick and aux level stay what they are. -/
def cmdInput (w : Nat) (i : StepInput) : StepInput :=
  { i with rst := false, op := some (.write cmdOffset (BitVec.ofNat 8 w)) }

end Sys2Proof.Machine
end

