-- ==== Sys2Proof/Machine/Step.lean ====
section
/-! DEFINITION. One step of the machine, and where its next command comes from. -/

namespace Sys2Proof.Machine

/-- One step: the next input record acts on the state (00_scope.md R15, 60_exceptions.md R210). -/
def step (s : State) : Host.Outcome State Fault Refusal := stepOn s.nextInput s

/-- The state whose next step is the host's write of the command byte `w` to CMD: the block fetches nothing, and a command
is what the host writes there (20_memory.md R75, R86; log 3). A command has 8 bits, so `nbits` is not needed. -/
def State.withFetchWord (s : State) (_nbits w : Nat) : State :=
  { s with inputs := cmdInput w s.nextInput :: s.inputs.tail }

end Sys2Proof.Machine
end

