-- ==== Sys2Proof/Safety.lean ====
section
/-! DEFINITION. What claims are stated in terms of: the legal states, and streams of input records. -/

namespace Sys2Proof.Machine

/-- A legal state: the parameter is legal (00_scope.md R7), SETTLE_CNT is in its range (10_state.md R47), TXLEN has a
legal value (R35), and a grant pulse goes with GRANT and CLEAR, in a settled mode other than Program (42_flowgate.md R188,
R189). -/
abbrev State.Legal (s : State) : Prop :=
  1 ≤ s.settleTicks ∧ s.settleCnt ≤ s.settleTicks ∧ (s.txlen = 0 ∨ s.txlen = 3 ∨ s.txlen = 6) ∧
    (s.out.txGrant = true →
      s.flags.grant = true ∧ s.flags.clear = true ∧ s.settleCnt = 0 ∧ s.mode ≠ programMode)

/-- How many of the records hold a tick. -/
def ticksIn : List StepInput → Nat
  | [] => 0
  | i :: is => (if i.tick then 1 else 0) + ticksIn is

/-- None of the records is a reset step. -/
def noReset : List StepInput → Bool
  | [] => true
  | i :: is => !i.rst && noReset is

/-- A host write in one step, with the tick and the aux level the environment gives it. -/
def writeStep (off : Offset) (v : Byte) (tick aux : Bool) : StepInput :=
  { rst := false, op := some (.write off v), tick := tick, aux := aux }

/-- `n` rounds of the body of the host's WAIT_SETTLED loop, `RD STATUS` and then `TICK` (30_encoding.md R103). `aux` gives the
busy line's level in each step, which the loop does not look at. -/
def waitSettled (aux : Nat → Bool) : Nat → List StepInput
  | 0 => []
  | n + 1 =>
    { rst := false, op := some (.read 0x1D), tick := false, aux := aux (2 * n) } ::
      { rst := false, op := none, tick := true, aux := aux (2 * n + 1) } :: waitSettled aux n

/-- The host loads a received frame into FRM[0..5] in arrival order (20_memory.md R70), whatever ticks and busy-line levels
come with its six writes. -/
def responseLoad (f : Frame) (tick aux : Nat → Bool) : List StepInput :=
  [ writeStep 0x00 f.b0 (tick 0) (aux 0), writeStep 0x01 f.b1 (tick 1) (aux 1), writeStep 0x02 f.b2 (tick 2) (aux 2),
    writeStep 0x03 f.b3 (tick 3) (aux 3), writeStep 0x04 f.b4 (tick 4) (aux 4), writeStep 0x05 f.b5 (tick 5) (aux 5) ]

end Sys2Proof.Machine
end

