-- ==== Sys2Proof/Certificates/Slice0/Obligations.lean ====
section
/-! DEFINITION. What is claimed of the model, from the numbered rules of spec/. Register contents are stated through the
window read `busRead`, which shows the whole state but SETTLE_CNT and the model's own fields (60_exceptions.md R217). -/

namespace Sys2Proof.Claims

open Sys2Proof.Machine

/-- Every offset outside the list reads after as it read before. -/
def SameExcept (offs : List Offset) (s t : State) : Prop := ∀ off, off ∉ offs → t.busRead off = s.busRead off

/-- What the window does not show is unchanged: SETTLE_CNT, and the model's own fields for the parameter (log 5), the coming
inputs (log 1) and the draw counter (log 7). -/
def SameHidden (s t : State) : Prop :=
  t.settleCnt = s.settleCnt ∧ t.settleTicks = s.settleTicks ∧ t.inputs = s.inputs ∧ t.draw = s.draw

/-- The model's own bookkeeping of a step, its choice and no rule's: the parameter is kept (log 5), one input record is
used up (log 1), the draw counter goes on (log 7). -/
def OneInputUsed (s t : State) : Prop :=
  t.settleTicks = s.settleTicks ∧ t.inputs = s.inputs.tail ∧ t.draw = s.draw + 1

/-- SETTLE_CNT after a step's tick, when no SET_MODE is accepted in the step. -/
def ticked (tick : Bool) (cnt : Nat) : Nat := if tick = true then cnt - 1 else cnt

/-- R88: the byte is reserved, said on its two hexadecimal digits. -/
def ReservedDigits (v : Byte) : Prop :=
  v.toNat / 16 ≥ 10 ∨ (v.toNat / 16 ≤ 9 ∧ v.toNat / 16 ≠ 6 ∧ v.toNat % 16 ≠ 0) ∨
    (v.toNat / 16 = 6 ∧ v.toNat % 16 / 4 ≠ 0)

/-- The step's operation writes the command byte `v` to CMD. -/
def WritesCmd (i : StepInput) (v : Byte) : Prop := i.op = some (.write 0x1F v)

/-- The step's operation is a SET_MODE of code `m`. -/
def WritesSetMode (i : StepInput) (m : ModeCode) : Prop := WritesCmd i (0x60 + m.setWidth 8)

/-- The step accepts a SET_MODE of code `m`: no reset, the command, and no settle delay running. -/
def AcceptsMode (s : State) (m : ModeCode) : Prop :=
  s.nextInput.rst = false ∧ WritesSetMode s.nextInput m ∧ s.settleCnt = 0

/-- R62 and R85: the byte at each offset, from the registers themselves. -/
def readTable (s : State) (off : Offset) : Byte :=
  match off.toNat with
  | 0x00 => s.frm.b0
  | 0x01 => s.frm.b1
  | 0x02 => s.frm.b2
  | 0x03 => s.frm.b3
  | 0x04 => s.frm.b4
  | 0x05 => s.frm.b5
  | 0x06 => BitVec.ofNat 8 s.txlen.toNat
  | 0x08 => s.fields.marker
  | 0x09 => s.fields.addh
  | 0x0A => s.fields.addl
  | 0x0B => BitVec.ofNat 8 s.fields.parity.toNat
  | 0x0C => BitVec.ofNat 8 s.fields.urate.toNat
  | 0x0D => BitVec.ofNat 8 s.fields.arate.toNat
  | 0x0E => s.fields.chan
  | 0x0F => BitVec.ofNat 8 s.fields.txmode.toNat
  | 0x10 => BitVec.ofNat 8 s.fields.pullup.toNat
  | 0x11 => BitVec.ofNat 8 s.fields.wake.toNat
  | 0x12 => BitVec.ofNat 8 s.fields.fec.toNat
  | 0x13 => BitVec.ofNat 8 s.fields.power.toNat
  | 0x1C => BitVec.ofNat 8 s.mode.toNat
  | 0x1D => BitVec.ofNat 8 ((if s.settleCnt = 0 then 0 else 1) + 2 * s.flags.valid.toNat + 4 * s.flags.clear.toNat +
      8 * s.flags.grant.toNat + 16 * s.flags.decerr.toNat + 32 * s.flags.busyerr.toNat + 64 * s.flags.cmderr.toNat)
  | _ => 0x00

/-- How many low bits the data register at an offset holds. -/
def dataWidth (off : Offset) : Nat :=
  match regAt off with
  | .field f => fieldWidth f
  | _ => 8

/-- The offset is one of FRM0 to FRM5. -/
def IsFrmOffset (off : Offset) : Prop := off.toNat ≤ 5

/-- The offset is one of the twelve field registers. -/
def IsFieldOffset (off : Offset) : Prop := 0x08 ≤ off.toNat ∧ off.toNat ≤ 0x13

/-- The offset holds no register (20_memory.md R64). -/
def IsReservedOffset (off : Offset) : Prop :=
  off.toNat = 0x07 ∨ (0x14 ≤ off.toNat ∧ off.toNat ≤ 0x1B) ∨ off.toNat = 0x1E

end Sys2Proof.Claims

open Sys2Proof Sys2Proof.Machine Sys2Proof.Claims

/-! ### Encodings (30_encoding.md) -/

/-- R87, R90: decoding the byte of a command gives the command back, every operand included. -/
def Obligations.DecodeOfEncodeIsTheCommand : Prop :=
  ∀ i : Instr, i.wellFormed = true → decode (encode i) = .command i

/-- R87, R89: a legal byte is the one byte of the command it decodes to, so no two bytes name one command. -/
def Obligations.LegalByteIsTheBytesOfItsCommand : Prop :=
  ∀ (v : Byte) (i : Instr), decode v = .command i → i.wellFormed = true ∧ encode i = v

/-- R87: the command bytes of the opcode table, and some reserved neighbours, written out. -/
def Obligations.CommandBytesDecodeAsTheTableSays : Prop :=
  decode 0x00 = .command .nop ∧ decode 0x10 = .command .pack ∧ decode 0x20 = .command .packPersist ∧
  decode 0x30 = .command .unpack ∧ decode 0x40 = .command .reqRead ∧ decode 0x50 = .command .reqReset ∧
  decode 0x60 = .command (.setMode 0) ∧ decode 0x61 = .command (.setMode 1) ∧ decode 0x62 = .command (.setMode 2) ∧
  decode 0x63 = .command (.setMode 3) ∧ decode 0x70 = .command .poll ∧ decode 0x80 = .command .gsend ∧
  decode 0x90 = .command .clrErr ∧ (∃ w, decode 0x64 = .reserved w) ∧ (∃ w, decode 0x91 = .reserved w) ∧
  (∃ w, decode 0xA0 = .reserved w)

/-- R88: the bytes of cases (a) and (b) are reserved and no others are, and writing one sets CMDERR and does nothing
else. -/
def Obligations.ReservedBytesOnlySetCmderr : Prop :=
  ∀ v : Byte,
    (ReservedDigits v →
      ∀ s : State, ∃ t, busWrite 0x1F v s = .next t ∧ t.busRead 0x1D = s.busRead 0x1D ||| 0x40 ∧
        SameExcept [0x1D] s t ∧ SameHidden s t ∧ t.out = s.out) ∧
    (¬ ReservedDigits v → ∃ i, decode v = .command i)

/-- R101: the host-op words of the program notation and the input records they stand for correspond one to one (that a word
with set bits which the layout calls 0 stands for none is the model's reading, log 12). -/
def Obligations.HostWordNotationRoundTrips : Prop :=
  (∀ i : StepInput, i.wellFormed = true → decodeHostWord (encodeHostWord i) i.aux = .input i) ∧
  (∀ (w : HostWord) (aux : Bool) (i : StepInput), decodeHostWord w aux = .input i →
    i.wellFormed = true ∧ i.aux = aux ∧ encodeHostWord i = w)

/-! ### The register window (20_memory.md, 10_state.md) -/

/-- R64: a reserved offset reads 0x00, and a write to one changes nothing, error flags included. -/
def Obligations.ReservedOffsetsReadZeroAndIgnoreWrites : Prop :=
  ∀ (off : Offset), IsReservedOffset off → ∀ (s : State) (v : Byte), s.busRead off = 0x00 ∧ busWrite off v s = .next s

/-- R65: TXLEN, MODE and STATUS ignore writes and CMD reads as 0x00. -/
def Obligations.ReadOnlyRegistersIgnoreWrites : Prop :=
  ∀ (s : State) (v : Byte), busWrite 0x06 v s = .next s ∧ busWrite 0x1C v s = .next s ∧ busWrite 0x1D v s = .next s ∧
    s.busRead 0x1F = 0x00

/-- R63, R34: a host write to a data register stores the byte under the register's mask and changes nothing else. -/
def Obligations.DataRegisterWriteStoresMaskedByte : Prop :=
  ∀ (off : Offset) (v : Byte) (s : State), IsFrmOffset off ∨ IsFieldOffset off →
    ∃ t, busWrite off v s = .next t ∧
      (t.busRead off).toNat = v.toNat % 2 ^ dataWidth off ∧
      SameExcept [off] s t ∧ SameHidden s t ∧ t.out = s.out

/-- R34: `W(F)` of the twelve field registers, and the bits above it always read as 0. -/
def Obligations.FieldRegistersReadWithinTheirWidth : Prop :=
  (∀ f : FieldReg, fieldWidth f =
    (match f with
      | .marker | .addh | .addl | .chan => 8
      | .parity | .power => 2
      | .urate | .arate | .wake => 3
      | .txmode | .pullup | .fec => 1)) ∧
  ∀ (s : State) (f : FieldReg), (s.busRead (fieldOffset f)).toNat < 2 ^ fieldWidth f

/-- R62: a read returns the byte of the register map as it was before the step's tick, asserts no grant, and changes no
state; the tick of the step is all that happens besides, with the model's own bookkeeping (log 1, 4, 5, 7). -/
def Obligations.HostReadReturnsTheByteAndChangesNothing : Prop :=
  ∀ (s : State) (off : Offset), s.nextInput.rst = false → s.nextInput.op = some (.read off) →
    ∃ t, step s = .next t ∧ t.out = { rdata := some (readTable s off), txGrant := false } ∧
      SameExcept [0x1D] s t ∧ t.settleCnt = ticked s.nextInput.tick s.settleCnt ∧ OneInputUsed s t ∧
      (∀ k, 0 < k → (t.busRead 0x1D).getLsbD k = (s.busRead 0x1D).getLsbD k) ∧
      (s.nextInput.tick = false → t.busRead 0x1D = s.busRead 0x1D) ∧
      s.busRead off = readTable s off

/-- R37, R38, R45: the bits of the STATUS byte, with SETTLING derived from the counter and bit 7 always 0. -/
def Obligations.StatusByteHasTheFlagsInPlace : Prop :=
  ∀ s : State,
    ((s.busRead 0x1D).getLsbD 0 = true ↔ s.settleCnt ≠ 0) ∧
    (s.busRead 0x1D).getLsbD 1 = s.flags.valid ∧ (s.busRead 0x1D).getLsbD 2 = s.flags.clear ∧
    (s.busRead 0x1D).getLsbD 3 = s.flags.grant ∧ (s.busRead 0x1D).getLsbD 4 = s.flags.decerr ∧
    (s.busRead 0x1D).getLsbD 5 = s.flags.busyerr ∧ (s.busRead 0x1D).getLsbD 6 = s.flags.cmderr ∧
    (s.busRead 0x1D).getLsbD 7 = false

/-- R68: writing a byte twice to a register other than CMD leaves the state as writing it once. -/
def Obligations.RegisterWritesAreIdempotent : Prop :=
  ∀ (off : Offset) (v : Byte) (s t : State), off ≠ 0x1F → busWrite off v s = .next t → busWrite off v t = .next t

/-- R60, R61: offset `off` stands at platform address BASE + `off`, the 32 addresses from BASE up are the window, each at its
one offset, and no other address is in it, whatever BASE is (BASE is an opaque constant, log 10). -/
def Obligations.WindowStandsAtBase : Prop :=
  (∀ off : Offset, windowAddress off = Config.base + off.toNat) ∧
  (∀ a : Nat, windowOffset a = none ↔ a < Config.base ∨ Config.base + 32 ≤ a) ∧
  (∀ off : Offset, windowOffset (windowAddress off) = some off) ∧
  (∀ (a : Nat) (off : Offset), windowOffset a = some off → a = windowAddress off)

/-! ### Codec functions and commands (40_codec.md) -/

/-- R128: pack and unpack are inverse of each other both ways, and the frame of a record with the persist marker is a
valid one. -/
def Obligations.PackAndUnpackAreInverse : Prop :=
  (∀ rec : Fields, unpack (pack rec) = rec) ∧ (∀ frm : Frame, pack (unpack frm) = frm) ∧
  (∀ rec : Fields, rec.marker = 0xC0 → frameValid (pack rec) = true)

/-- R124, R69: the node address is big-endian, and splitting it gives the two bytes back. -/
def Obligations.NodeAddressIsBigEndian : Prop :=
  (∀ hi lo : Byte, (addr16 hi lo).toNat = 256 * hi.toNat + lo.toNat ∧ split16 (addr16 hi lo) = (hi, lo)) ∧
  (∀ a : Address, addr16 (split16 a).1 (split16 a).2 = a)

/-- R129: NOP has no effect, and a NOP in the same step as a tick does not stop the tick; the step's bookkeeping is the
model's own (log 1, 5, 7). -/
def Obligations.NopDoesNothingAndLetsTheTickPass : Prop :=
  decode 0x00 = .command .nop ∧
  (∀ s : State, exec .nop s = .next s) ∧
  ∀ s : State, s.nextInput.rst = false → WritesCmd s.nextInput 0x00 →
    ∃ t, step s = .next t ∧ SameExcept [0x1D] s t ∧ (∀ k, 0 < k → (t.busRead 0x1D).getLsbD k = (s.busRead 0x1D).getLsbD k) ∧
      t.settleCnt = ticked s.nextInput.tick s.settleCnt ∧ OneInputUsed s t

/-- R130: PACK builds the frame of the field registers, the marker verbatim, and sets TXLEN to 6; flags, fields and all
else keep their values. The places of the options byte's fields are the spec's decision D4 (log 9). -/
def Obligations.PackBuildsTheFrameOfTheFields : Prop :=
  decode 0x10 = .command .pack ∧
  ∀ s : State, ∃ t, exec .pack s = .next t ∧
    t.busRead 0x00 = s.busRead 0x08 ∧ t.busRead 0x01 = s.busRead 0x09 ∧ t.busRead 0x02 = s.busRead 0x0A ∧
    t.busRead 0x03 = s.busRead 0x0B <<< 6 ||| s.busRead 0x0C <<< 3 ||| s.busRead 0x0D ∧
    t.busRead 0x04 = s.busRead 0x0E ∧
    t.busRead 0x05 = s.busRead 0x0F <<< 7 ||| s.busRead 0x10 <<< 6 ||| s.busRead 0x11 <<< 3 |||
      s.busRead 0x12 <<< 2 ||| s.busRead 0x13 ∧
    t.busRead 0x06 = 6 ∧
    SameExcept [0x00, 0x01, 0x02, 0x03, 0x04, 0x05, 0x06] s t ∧ SameHidden s t ∧ t.out = s.out

/-- R131, R98: PACK_PERSIST builds the 6-byte config-write request with FRM[0] forced to 0xC0; F_MARKER and all else keep
their values, and the frame is always a valid one. The places of the options byte's fields are the spec's decision D4 (log
9). -/
def Obligations.PackPersistBuildsTheWriteRequest : Prop :=
  decode 0x20 = .command .packPersist ∧
  ∀ s : State, ∃ t, exec .packPersist s = .next t ∧
    t.requestBytes = [0xC0, s.busRead 0x09, s.busRead 0x0A,
      s.busRead 0x0B <<< 6 ||| s.busRead 0x0C <<< 3 ||| s.busRead 0x0D, s.busRead 0x0E,
      s.busRead 0x0F <<< 7 ||| s.busRead 0x10 <<< 6 ||| s.busRead 0x11 <<< 3 ||| s.busRead 0x12 <<< 2 |||
        s.busRead 0x13] ∧
    t.busRead 0x00 = 0xC0 ∧ t.busRead 0x06 = 6 ∧ frameValid t.frm = true ∧
    (∃ u, exec .pack s = .next u ∧ SameExcept [0x00] u t) ∧
    SameExcept [0x00, 0x01, 0x02, 0x03, 0x04, 0x05, 0x06] s t ∧ SameHidden s t ∧ t.out = s.out

/-- R132: UNPACK writes every field register from FRM, whatever the marker, sets VALID to the marker check, sets DECERR
when it fails and otherwise keeps it; FRM, TXLEN, MODE and the other flags keep their values. The places of the options
byte's fields are the spec's decision D4 (log 9). -/
def Obligations.UnpackDecodesTheFrameAndChecksTheMarker : Prop :=
  decode 0x30 = .command .unpack ∧
  ∀ s : State, ∃ t, exec .unpack s = .next t ∧
    t.busRead 0x08 = s.busRead 0x00 ∧ t.busRead 0x09 = s.busRead 0x01 ∧ t.busRead 0x0A = s.busRead 0x02 ∧
    t.busRead 0x0B = s.busRead 0x03 >>> 6 ∧ t.busRead 0x0C = s.busRead 0x03 >>> 3 &&& 7 ∧
    t.busRead 0x0D = s.busRead 0x03 &&& 7 ∧ t.busRead 0x0E = s.busRead 0x04 ∧
    t.busRead 0x0F = s.busRead 0x05 >>> 7 ∧ t.busRead 0x10 = s.busRead 0x05 >>> 6 &&& 1 ∧
    t.busRead 0x11 = s.busRead 0x05 >>> 3 &&& 7 ∧ t.busRead 0x12 = s.busRead 0x05 >>> 2 &&& 1 ∧
    t.busRead 0x13 = s.busRead 0x05 &&& 3 ∧
    t.busRead 0x1D = (if s.busRead 0x00 = 0xC0 then s.busRead 0x1D ||| 0x02 else s.busRead 0x1D &&& 0xFD ||| 0x10) ∧
    (∀ off, ¬ IsFieldOffset off → off ≠ 0x1D → t.busRead off = s.busRead off) ∧ SameHidden s t ∧ t.out = s.out

/-- R133, R97: REQ_READ builds the 3-byte config-read request; FRM[3..5], the fields and all else keep their values. -/
def Obligations.ReqReadBuildsTheReadRequest : Prop :=
  decode 0x40 = .command .reqRead ∧
  ∀ s : State, ∃ t, exec .reqRead s = .next t ∧ t.requestBytes = [0xC1, 0xC1, 0xC1] ∧
    t.busRead 0x00 = 0xC1 ∧ t.busRead 0x01 = 0xC1 ∧ t.busRead 0x02 = 0xC1 ∧ t.busRead 0x06 = 3 ∧
    SameExcept [0x00, 0x01, 0x02, 0x06] s t ∧ SameHidden s t ∧ t.out = s.out

/-- R134, R99: REQ_RESET builds the 3-byte reset request; FRM[3..5], the fields and all else keep their values. -/
def Obligations.ReqResetBuildsTheResetRequest : Prop :=
  decode 0x50 = .command .reqReset ∧
  ∀ s : State, ∃ t, exec .reqReset s = .next t ∧ t.requestBytes = [0xC4, 0xC4, 0xC4] ∧
    t.busRead 0x00 = 0xC4 ∧ t.busRead 0x01 = 0xC4 ∧ t.busRead 0x02 = 0xC4 ∧ t.busRead 0x06 = 3 ∧
    SameExcept [0x00, 0x01, 0x02, 0x06] s t ∧ SameHidden s t ∧ t.out = s.out

/-- R135: CLR_ERR clears DECERR, BUSYERR and CMDERR and nothing else: the low nibble of STATUS stays. -/
def Obligations.ClrErrClearsTheStickyFlagsOnly : Prop :=
  decode 0x90 = .command .clrErr ∧
  ∀ s : State, ∃ t, exec .clrErr s = .next t ∧ t.busRead 0x1D = s.busRead 0x1D &&& 0x0F ∧ SameExcept [0x1D] s t ∧
    SameHidden s t ∧ t.out = s.out

/-- R136: no codec command depends on MODE or SETTLE_CNT: with other values there it does the same to the rest. -/
def Obligations.CodecCommandsIgnoreModeAndSettle : Prop :=
  ∀ i ∈ [Instr.nop, .pack, .packPersist, .unpack, .reqRead, .reqReset, .clrErr],
    ∀ (s : State) (m : ModeCode) (n : Nat), ∃ t, exec i s = .next t ∧ t.mode = s.mode ∧ t.settleCnt = s.settleCnt ∧
      exec i ((s.setMode m).setSettleCnt n) = .next ((t.setMode m).setSettleCnt n)

/-- R128 on the machine: UNPACK after PACK gives the field registers back, whatever they hold, and sets VALID exactly when
F_MARKER is 0xC0. -/
def Obligations.UnpackAfterPackRestoresTheFields : Prop :=
  ∀ s : State, ∃ t u, exec .pack s = .next t ∧ exec .unpack t = .next u ∧
    (∀ off, IsFieldOffset off → u.busRead off = s.busRead off) ∧
    ((u.busRead 0x1D).getLsbD 1 = true ↔ s.busRead 0x08 = 0xC0)

/-- R69, R124 on the machine: PACK and UNPACK carry the node address over unchanged, between F_ADDH, F_ADDL and FRM[1],
FRM[2]. -/
def Obligations.CodecCarriesTheNodeAddress : Prop :=
  ∀ s : State,
    (∀ i ∈ [Instr.pack, .packPersist], ∃ t, exec i s = .next t ∧
      addr16 (t.busRead 0x01) (t.busRead 0x02) = addr16 (s.busRead 0x09) (s.busRead 0x0A)) ∧
    ∃ t, exec .unpack s = .next t ∧
      addr16 (t.busRead 0x09) (t.busRead 0x0A) = addr16 (s.busRead 0x01) (s.busRead 0x02)

/-! ### ModeController (41_mode.md) -/

/-- R161: SET_MODE is refused while settling, setting BUSYERR and nothing else. Otherwise MODE and both lines take the
code, SETTLE_CNT takes SETTLE_TICKS and SETTLING reads 1, whatever the old mode; nothing else changes. -/
def Obligations.SetModeEntersTheModeOrIsRefused : Prop :=
  ∀ (m : ModeCode) (s : State), decode (0x60 + m.setWidth 8) = .command (.setMode m) ∧
    (s.settleCnt ≠ 0 →
      ∃ t, exec (.setMode m) s = .next t ∧ t.busRead 0x1D = s.busRead 0x1D ||| 0x20 ∧ SameExcept [0x1D] s t ∧
        SameHidden s t ∧ t.out = s.out ∧ t.modeA = s.modeA ∧ t.modeB = s.modeB) ∧
    (s.settleCnt = 0 → 1 ≤ s.settleTicks →
      ∃ t, exec (.setMode m) s = .next t ∧ t.busRead 0x1C = m.setWidth 8 ∧ t.modeA = m.getLsbD 0 ∧
        t.modeB = m.getLsbD 1 ∧ t.settleCnt = s.settleTicks ∧ t.busRead 0x1D = s.busRead 0x1D ||| 0x01 ∧
        SameExcept [0x1C, 0x1D] s t ∧ t.settleTicks = s.settleTicks ∧ t.inputs = s.inputs ∧ t.draw = s.draw ∧
        t.out = s.out)

/-- R162: SETTLE_CNT after a step. Reset and an accepted SET_MODE load SETTLE_TICKS, and a tick in such a step is lost; in
every other step, a refused SET_MODE's included, a tick takes one off and stops at 0. SETTLING is 1 exactly while the counter
is not 0. -/
def Obligations.SettleCounterFollowsResetModeAndTick : Prop :=
  ∀ s t : State, step s = .next t →
    (s.nextInput.rst = true → t.settleCnt = s.settleTicks) ∧
    ((∃ m, AcceptsMode s m) → t.settleCnt = s.settleTicks) ∧
    (s.nextInput.rst = false → (¬ ∃ m, AcceptsMode s m) → t.settleCnt = ticked s.nextInput.tick s.settleCnt) ∧
    ((t.busRead 0x1D).getLsbD 0 = true ↔ t.settleCnt ≠ 0)

/-- R164: the lines are MODE's bits at every step, and MODE changes only in a step that accepts a SET_MODE, to its code, or
in a reset step, to Normal. -/
def Obligations.ModeLinesChangeOnlyByAcceptedSetModeOrReset : Prop :=
  ∀ s t : State, step s = .next t →
    t.modeA = (t.busRead 0x1C).getLsbD 0 ∧ t.modeB = (t.busRead 0x1C).getLsbD 1 ∧
    (s.nextInput.rst = true → t.mode = 0b00) ∧ (∀ m, AcceptsMode s m → t.mode = m) ∧
    (s.nextInput.rst = false → (¬ ∃ m, AcceptsMode s m) → t.mode = s.mode)

/-- R163: after an accepted SET_MODE, as long as fewer than SETTLE_TICKS ticks have come and no reset has, whatever else
the host does: the block is in the mode entered, SETTLING reads 1, the counter holds the ticks still needed, and no send is
granted. The coming inputs are the model's own field (log 1). -/
def Obligations.SettleGateHoldsUntilTheLastTick : Prop :=
  ∀ (s : State) (m : ModeCode) (tick aux : Bool) (ins rest : List StepInput),
    s.inputs = commandStep (.setMode m) tick aux :: (ins ++ rest) → s.settleCnt = 0 → noReset ins = true →
    ticksIn ins < s.settleTicks →
    ∃ t : State, Host.Core.run core (ins.length + 1) s = .next t ∧ t.inputs = rest ∧ t.mode = m ∧
      t.settleCnt = s.settleTicks - ticksIn ins ∧ (t.busRead 0x1D).getLsbD 0 = true ∧ t.out.txGrant = false

/-- R163: the step that holds the SETTLE_TICKS-th tick after an accepted SET_MODE ends the settle delay in the mode
entered. The coming inputs are the model's own field (log 1). -/
def Obligations.SettleGateOpensAtTheLastTick : Prop :=
  ∀ (s : State) (m : ModeCode) (tick aux : Bool) (ins rest : List StepInput) (last : StepInput),
    s.inputs = commandStep (.setMode m) tick aux :: (ins ++ last :: rest) → s.settleCnt = 0 → noReset ins = true →
    ticksIn ins + 1 = s.settleTicks → last.rst = false → last.tick = true →
    ∃ t : State, Host.Core.run core (ins.length + 2) s = .next t ∧ t.inputs = rest ∧ t.mode = m ∧ t.settleCnt = 0 ∧
      (t.busRead 0x1D).getLsbD 0 = false

/-- R103: the host's WAIT_SETTLED loop ends after exactly SETTLE_CNT rounds: SETTLING reads 1 after every smaller number
of rounds and 0 after that many, and the loop changes nothing but the settle counter. The coming inputs are the model's own
field (log 1). -/
def Obligations.WaitSettledEndsAfterSettleCntTicks : Prop :=
  ∀ (s : State) (aux : Nat → Bool) (n : Nat) (rest : List StepInput), n ≤ s.settleCnt →
    s.inputs = waitSettled aux n ++ rest →
    ∃ t : State, Host.Core.run core (2 * n) s = .next t ∧ t.inputs = rest ∧ t.settleCnt = s.settleCnt - n ∧
      ((t.busRead 0x1D).getLsbD 0 = false ↔ n = s.settleCnt) ∧ SameExcept [0x1D] s t ∧ t.flags = s.flags

/-! ### AuxFlowGate (42_flowgate.md) -/

/-- R187: POLL copies the sampled level into CLEAR, in every mode and while settling, and changes nothing else, GRANT
included. -/
def Obligations.PollCopiesTheLineIntoClear : Prop :=
  decode 0x70 = .command .poll ∧
  ∀ s : State, ∃ t, exec .poll s = .next t ∧
    t.busRead 0x1D = (if s.nextInput.aux = true then s.busRead 0x1D ||| 0x04 else s.busRead 0x1D &&& 0xFB) ∧
    SameExcept [0x1D] s t ∧ SameHidden s t ∧ t.out = s.out

/-- R188, R189: GSEND copies the sampled level into CLEAR, and the verdict into GRANT and the tx_grant output; the verdict
is that the line is high, the block is not settling and the mode is not Program. Nothing else changes. -/
def Obligations.GsendGrantsExactlyWhenTheConditionHolds : Prop :=
  decode 0x80 = .command .gsend ∧
  ∀ s : State, ∃ (t : State) (g : Bool), exec .gsend s = .next t ∧
    (g = true ↔ s.nextInput.aux = true ∧ s.settleCnt = 0 ∧ s.busRead 0x1C ≠ 0x03) ∧
    t.busRead 0x1D = s.busRead 0x1D &&& 0xF3 ||| (if s.nextInput.aux = true then 0x04 else 0x00) |||
      (if g = true then 0x08 else 0x00) ∧
    t.out = { rdata := s.out.rdata, txGrant := g } ∧ SameExcept [0x1D] s t ∧ SameHidden s t

/-- R191: tx_grant is 1 for exactly the step of a GSEND whose verdict is grant, and is 0 in every other step. -/
def Obligations.TxGrantPulsesOnlyInAGrantingGsend : Prop :=
  ∀ s t : State, step s = .next t →
    (t.out.txGrant = true ↔ s.nextInput.rst = false ∧ WritesCmd s.nextInput 0x80 ∧ s.nextInput.aux = true ∧
      s.settleCnt = 0 ∧ s.mode ≠ 0b11)

/-- R186: the busy line's level reaches the block only through POLL and GSEND: in a step without one, the level makes no
difference to the next state (the level stands in the input records that State holds, log 1). -/
def Obligations.AuxLevelReachesOnlyPollAndGsend : Prop :=
  ∀ (s : State) (i : StepInput) (rest : List StepInput) (a b : Bool),
    (i.rst = true ∨ (¬ WritesCmd i 0x70 ∧ ¬ WritesCmd i 0x80)) →
    ∃ t, step { s with inputs := { i with aux := a } :: rest } = .next t ∧
      step { s with inputs := { i with aux := b } :: rest } = .next t

/-! ### Errors and the step (60_exceptions.md) -/

/-- R205: nothing stops the block: from every state, every number of steps has a next state. -/
def Obligations.TheBlockNeverStops : Prop := ∀ (s : State) (k : Nat), ∃ t : State, Host.Core.run core k s = .next t

/-- R212: a sticky error flag that is 1 stays 1 in every step but a CLR_ERR or a reset step, and those clear all three. -/
def Obligations.StickyFlagsClearOnlyByClrErrOrReset : Prop :=
  ∀ s t : State, step s = .next t → ∀ k : Nat, k = 4 ∨ k = 5 ∨ k = 6 →
    (s.nextInput.rst = true ∨ WritesCmd s.nextInput 0x90 → (t.busRead 0x1D).getLsbD k = false) ∧
    (s.nextInput.rst = false → ¬ WritesCmd s.nextInput 0x90 → (s.busRead 0x1D).getLsbD k = true →
      (t.busRead 0x1D).getLsbD k = true)

/-- R206: each error flag rises only by its cause: DECERR by UNPACK of a frame whose marker is not 0xC0, BUSYERR by SET_MODE
while settling, CMDERR by a reserved byte; and each cause does raise it. -/
def Obligations.ErrorFlagsRiseExactlyByTheirCauses : Prop :=
  ∀ s t : State, step s = .next t → s.nextInput.rst = false →
    ((s.busRead 0x1D).getLsbD 4 = false →
      ((t.busRead 0x1D).getLsbD 4 = true ↔ WritesCmd s.nextInput 0x30 ∧ s.busRead 0x00 ≠ 0xC0)) ∧
    ((s.busRead 0x1D).getLsbD 5 = false →
      ((t.busRead 0x1D).getLsbD 5 = true ↔ (∃ m, WritesSetMode s.nextInput m) ∧ s.settleCnt ≠ 0)) ∧
    ((s.busRead 0x1D).getLsbD 6 = false →
      ((t.busRead 0x1D).getLsbD 6 = true ↔ ∃ v, WritesCmd s.nextInput v ∧ ReservedDigits v))

/-- R207: the step of a reserved byte sets CMDERR, changes no register, other flag or counter, and does not suppress the
tick of the same step; the step's bookkeeping and the absent read byte are the model's own (log 1, 4, 5, 7). -/
def Obligations.ReservedByteStepKeepsTheTick : Prop :=
  ∀ (s : State) (v : Byte), s.nextInput.rst = false → WritesCmd s.nextInput v → ReservedDigits v →
    ∃ t, step s = .next t ∧ SameExcept [0x1D] s t ∧ (t.busRead 0x1D).getLsbD 6 = true ∧
      (∀ k, 0 < k → k ≠ 6 → (t.busRead 0x1D).getLsbD k = (s.busRead 0x1D).getLsbD k) ∧
      t.settleCnt = ticked s.nextInput.tick s.settleCnt ∧ t.out = { rdata := none, txGrant := false } ∧
      OneInputUsed s t

/-- R209: a step raises at most one of CMDERR and BUSYERR, and a step that raises DECERR raises neither. -/
def Obligations.AStepRaisesAtMostOneError : Prop :=
  ∀ s t : State, step s = .next t → ∀ j k : Nat, (j = 4 ∨ j = 5 ∨ j = 6) → (k = 4 ∨ k = 5 ∨ k = 6) →
    (s.busRead 0x1D).getLsbD j = false → (t.busRead 0x1D).getLsbD j = true →
    (s.busRead 0x1D).getLsbD k = false → (t.busRead 0x1D).getLsbD k = true → j = k

/-- R39, R40, R41: VALID changes only in an UNPACK or a reset step, CLEAR only in a POLL, a GSEND or a reset step, GRANT
only in a GSEND or a reset step. -/
def Obligations.ValidClearGrantHaveOnlyTheirWriters : Prop :=
  ∀ s t : State, step s = .next t → s.nextInput.rst = false →
    (¬ WritesCmd s.nextInput 0x30 → (t.busRead 0x1D).getLsbD 1 = (s.busRead 0x1D).getLsbD 1) ∧
    (¬ WritesCmd s.nextInput 0x70 → ¬ WritesCmd s.nextInput 0x80 →
      (t.busRead 0x1D).getLsbD 2 = (s.busRead 0x1D).getLsbD 2) ∧
    (¬ WritesCmd s.nextInput 0x80 → (t.busRead 0x1D).getLsbD 3 = (s.busRead 0x1D).getLsbD 3)

/-- R35: TXLEN after a step is 6 after PACK or PACK_PERSIST, 3 after REQ_READ or REQ_RESET, 0 after reset, and unchanged
after anything else. -/
def Obligations.TxlenIsTheLengthOfTheRequestLastBuilt : Prop :=
  ∀ s t : State, step s = .next t →
    (s.nextInput.rst = true → t.busRead 0x06 = 0) ∧
    (s.nextInput.rst = false →
      ((WritesCmd s.nextInput 0x10 ∨ WritesCmd s.nextInput 0x20) → t.busRead 0x06 = 6) ∧
      ((WritesCmd s.nextInput 0x40 ∨ WritesCmd s.nextInput 0x50) → t.busRead 0x06 = 3) ∧
      ((∀ v ∈ [0x10, 0x20, 0x40, 0x50], ¬ WritesCmd s.nextInput v) → t.busRead 0x06 = s.busRead 0x06))

/-- R22: outside reset, a frame byte changes only by a host write to its offset, by PACK or PACK_PERSIST, or, for FRM[0..2],
by REQ_READ or REQ_RESET. -/
def Obligations.FrameBytesHaveOnlyTheirWriters : Prop :=
  ∀ s t : State, step s = .next t → s.nextInput.rst = false → ∀ off : Offset, IsFrmOffset off →
    (∀ v, s.nextInput.op ≠ some (.write off v)) → ¬ WritesCmd s.nextInput 0x10 → ¬ WritesCmd s.nextInput 0x20 →
    (off.toNat ≤ 2 → ¬ WritesCmd s.nextInput 0x40 ∧ ¬ WritesCmd s.nextInput 0x50) →
    t.busRead off = s.busRead off

/-- R23 to R33: outside reset, a field register changes only by a host write to its offset or by UNPACK. -/
def Obligations.FieldRegistersHaveOnlyTheirWriters : Prop :=
  ∀ s t : State, step s = .next t → s.nextInput.rst = false → ∀ off : Offset, IsFieldOffset off →
    (∀ v, s.nextInput.op ≠ some (.write off v)) → ¬ WritesCmd s.nextInput 0x30 → t.busRead off = s.busRead off

/-- R210: reset takes priority over everything; otherwise the host operation comes first, on a step that begins with no
output, and then the tick, which an accepted SET_MODE drops. `endStep` uses up the input record, the model's own bookkeeping
(log 1, 7), and an absent read byte is its choice (log 4). -/
def Obligations.StepOrderIsResetThenOperationThenTick : Prop :=
  ∀ s : State,
    (s.nextInput.rst = true → step s = .next s.takeReset.endStep) ∧
    (s.nextInput.rst = false →
      ∃ u, perform s.nextInput.op { s with out := { rdata := none, txGrant := false } } = .next u ∧
        ((∃ m, AcceptsMode s m) → step s = .next u.endStep) ∧
        ((¬ ∃ m, AcceptsMode s m) →
          step s = .next { u with settleCnt := ticked s.nextInput.tick u.settleCnt }.endStep))

/-- R86, R90: a step whose operation writes a legal byte to CMD runs the command it decodes to; around it stand only the
clearing of the last outputs (log 4), the tick, and the use of one input record (log 1, 7). -/
def Obligations.StepRunsTheDecodedCommand : Prop :=
  ∀ (s : State) (v : Byte) (i : Instr), s.nextInput.rst = false → WritesCmd s.nextInput v →
    decode v = .command i →
    ∃ u, exec i s.beginStep = .next u ∧
      step s = .next (u.applyTick s.nextInput.tick (isSetMode i && !s.settling)).endStep

/-- The model's choice (log 3): what withFetchWord places is the write of the word's low byte to CMD, in a step without
reset, with the tick, the busy line and the later inputs as they were. -/
def Obligations.WithFetchWordPlacesTheCommand : Prop :=
  ∀ (s : State) (nbits w : Nat),
    (s.withFetchWord nbits w).nextInput =
      { rst := false, op := some (.write 0x1F (BitVec.ofNat 8 w)), tick := s.nextInput.tick, aux := s.nextInput.aux } ∧
    (s.withFetchWord nbits w).inputs.tail = s.inputs.tail ∧
    { s.withFetchWord nbits w with inputs := s.inputs } = s

/-! ### Reset and invariants (70_reset_and_hazards.md) -/

/-- R230, R51: a reset step puts TXLEN, MODE, the lines, SETTLE_CNT and STATUS at their reset values, returns 0x00 and
grants nothing, and its operation, tick and busy-line level are ignored. The data registers are left unspecified: the
statement says nothing about the free draws they hold (log 6). The bookkeeping is the model's own (log 1, 5, 7). -/
def Obligations.ResetStepPutsTheResetValues : Prop :=
  ∀ (s : State) (i : StepInput) (rest : List StepInput), i.rst = true → 1 ≤ s.settleTicks →
    ∃ t, step { s with inputs := i :: rest } = .next t ∧
      t.busRead 0x06 = 0 ∧ t.busRead 0x1C = 0 ∧ t.modeA = false ∧ t.modeB = false ∧ t.settleCnt = s.settleTicks ∧
      t.busRead 0x1D = 0x01 ∧ t.out = { rdata := some 0x00, txGrant := false } ∧ t.settleTicks = s.settleTicks ∧
      t.inputs = rest ∧ t.draw = s.draw + 1 ∧
      ∀ (op : Option HostOp) (tick aux : Bool),
        step { s with inputs := { rst := true, op := op, tick := tick, aux := aux } :: rest } = .next t

/-- R51, R231: the state right after reset: settling in Normal for SETTLE_TICKS, at least 1, no request, STATUS 0x01, no
grant. That State.reset is the state of a finished reset step is the model's reading (log 8); SETTLE_TICKS is opaque there
(log 5). -/
def Obligations.ResetStateIsSettlingInNormal : Prop :=
  State.reset.busRead 0x06 = 0 ∧ State.reset.busRead 0x1C = 0 ∧ State.reset.busRead 0x1D = 0x01 ∧
  State.reset.settleCnt = State.reset.settleTicks ∧ 1 ≤ State.reset.settleTicks ∧
  State.reset.modeA = false ∧ State.reset.modeB = false ∧ State.reset.out.txGrant = false

/-- State.reset meets the invariant of EveryStepKeepsTheStateLegal. -/
def Obligations.ResetStateIsLegal : Prop := State.reset.Legal

/-- R7, R35, R47, R188: every step from a legal state leads to a legal state: SETTLE_CNT within its range, TXLEN one of 0,
3 and 6, and a grant pulse only with GRANT, CLEAR, no settling and a mode other than Program. The parameter is a field of
State (log 5). -/
def Obligations.EveryStepKeepsTheStateLegal : Prop := ∀ s t : State, s.Legal → step s = .next t → t.Legal

/-- R231: after a reset step, as long as fewer than SETTLE_TICKS ticks have come and no further reset has, whatever else the
host does: the block is in Normal, SET_MODE is refused with BUSYERR, and GSEND does not grant, while POLL samples the line
and every codec command does what it does with no settle delay running. The model's input records are log 1. -/
def Obligations.AfterResetTheGateIsShut : Prop :=
  ∀ (s : State) (i : StepInput) (ins rest : List StepInput),
    s.inputs = i :: (ins ++ rest) → i.rst = true → noReset ins = true → ticksIn ins < s.settleTicks →
    ∃ t : State, Host.Core.run core (ins.length + 1) s = .next t ∧ t.inputs = rest ∧ t.busRead 0x1C = 0x00 ∧
      t.settleCnt = s.settleTicks - ticksIn ins ∧
      (∀ m, ∃ u, exec (.setMode m) t = .next u ∧ (u.busRead 0x1D).getLsbD 5 = true ∧ u.busRead 0x1C = 0x00 ∧
        u.settleCnt = t.settleCnt) ∧
      (∃ u, exec .gsend t = .next u ∧ u.out.txGrant = false ∧ (u.busRead 0x1D).getLsbD 3 = false) ∧
      (∃ u, exec .poll t = .next u ∧ ((u.busRead 0x1D).getLsbD 2 = true ↔ t.nextInput.aux = true)) ∧
      ∀ c ∈ [Instr.nop, .pack, .packPersist, .unpack, .reqRead, .reqReset, .clrErr],
        ∃ u, exec c t = .next u ∧ exec c (t.setSettleCnt 0) = .next (u.setSettleCnt 0)

/-- R70, R132: the host's six writes of a received frame, with whatever ticks and levels, load it in arrival order, and an
UNPACK then decodes it. The coming inputs are the model's own field (log 1). -/
def Obligations.LoadedResponseIsDecodedByUnpack : Prop :=
  ∀ (s : State) (f : Frame) (tick aux : Nat → Bool) (a b : Bool) (rest : List StepInput),
    s.inputs = responseLoad f tick aux ++ commandStep .unpack a b :: rest →
    ∃ t : State, Host.Core.run core 7 s = .next t ∧ t.inputs = rest ∧ t.frm = f ∧ t.fields = unpack f ∧
      t.txlen = s.txlen ∧ t.mode = s.mode ∧ (t.flags.valid = true ↔ f.b0 = 0xC0) ∧
      (t.flags.decerr = true ↔ s.flags.decerr = true ∨ f.b0 ≠ 0xC0)
end

