-- ==== Sys2Proof/Laws/Codec.lean ====
section
/-! SUPPORT. The codec functions byte by byte: the speed and options bytes and their fields, and the node address. -/

namespace Sys2Proof.Machine

theorem unpackSpeed_packSpeed (p : BitVec 2) (u a : BitVec 3) : unpackSpeed (packSpeed p u a) = (p, u, a) := by
  revert p u a
  decide

theorem packSpeed_unpackSpeed (b : Byte) :
    packSpeed (unpackSpeed b).1 (unpackSpeed b).2.1 (unpackSpeed b).2.2 = b := by
  revert b
  decide

theorem unpackOptions_packOptions (t pu : BitVec 1) (w : BitVec 3) (f : BitVec 1) (pw : BitVec 2) :
    unpackOptions (packOptions t pu w f pw) = (t, pu, w, f, pw) := by
  revert t pu w f pw
  decide

theorem packOptions_unpackOptions (b : Byte) :
    packOptions (unpackOptions b).1 (unpackOptions b).2.1 (unpackOptions b).2.2.1 (unpackOptions b).2.2.2.1
      (unpackOptions b).2.2.2.2 = b := by
  revert b
  decide

/-- The three fields of a speed byte, as a host reads them. -/
theorem unpackSpeed_bytes (b : Byte) :
    (unpackSpeed b).1.setWidth 8 = b >>> 6 ∧ (unpackSpeed b).2.1.setWidth 8 = b >>> 3 &&& 7 ∧
      (unpackSpeed b).2.2.setWidth 8 = b &&& 7 := by
  revert b
  decide

/-- The five fields of an options byte, as a host reads them. -/
theorem unpackOptions_bytes (b : Byte) :
    (unpackOptions b).1.setWidth 8 = b >>> 7 ∧ (unpackOptions b).2.1.setWidth 8 = b >>> 6 &&& 1 ∧
      (unpackOptions b).2.2.1.setWidth 8 = b >>> 3 &&& 7 ∧ (unpackOptions b).2.2.2.1.setWidth 8 = b >>> 2 &&& 1 ∧
      (unpackOptions b).2.2.2.2.setWidth 8 = b &&& 3 := by
  revert b
  decide

/-- The node address is the two bytes joined, the high one first. -/
theorem addr16_eq_append (hi lo : Byte) : addr16 hi lo = hi ++ lo := by
  apply BitVec.eq_of_toNat_eq
  have h := hi.isLt
  have l := lo.isLt
  simp only [addr16, BitVec.toNat_or, BitVec.toNat_shiftLeft, BitVec.toNat_setWidth, BitVec.toNat_append]
  rw [Nat.mod_eq_of_lt (by omega : hi.toNat < 2 ^ 16), Nat.mod_eq_of_lt (by omega : lo.toNat < 2 ^ 16),
    Nat.mod_eq_of_lt (by rw [Nat.shiftLeft_eq]; omega)]

end Sys2Proof.Machine
end

