-- ==== Sys2Proof/Laws/Decode.lean ====
section
/-! SUPPORT. Small facts about the encodings: every command is well formed, and the four parts of a host-op word. -/

namespace Sys2Proof

/-- Every code of SET_MODE fits its field (R165). -/
theorem wellFormed_all (i : Instr) : i.wellFormed = true := by
  cases i with
  | setMode m => exact decide_eq_true m.isLt
  | _ => rfl

/-- The parts of a host-op word are what it was built of. -/
theorem packHostWord_parts (kind : BitVec 2) (tick : Bool) (off : Offset) (v : Byte) :
    hostWordKind (packHostWord kind tick off v) = kind ∧ hostWordTick (packHostWord kind tick off v) = tick ∧
      hostWordOffset (packHostWord kind tick off v) = off ∧ hostWordData (packHostWord kind tick off v) = v := by
  unfold hostWordKind hostWordTick hostWordOffset hostWordData packHostWord
  refine ⟨?_, ?_, ?_, ?_⟩
  · apply BitVec.eq_of_getLsbD_eq
    intro k hk
    interval_cases k <;> simp
  · simp
  · apply BitVec.eq_of_getLsbD_eq
    intro k hk
    interval_cases k <;> simp
  · apply BitVec.eq_of_getLsbD_eq
    intro k hk
    interval_cases k <;> simp

/-- A host-op word is its four parts put together. -/
theorem packHostWord_of_parts (w : HostWord) :
    packHostWord (hostWordKind w) (hostWordTick w) (hostWordOffset w) (hostWordData w) = w := by
  unfold hostWordKind hostWordTick hostWordOffset hostWordData packHostWord
  apply BitVec.eq_of_getLsbD_eq
  intro k hk
  interval_cases k <;> simp

end Sys2Proof
end

