-- ==== Sys2Proof/Laws/Flags.lean ====
section
/-! SUPPORT. The STATUS byte, bit by bit, and what each flag update does to it: proofs cite these lemmas and do not unfold
the concatenation. -/

namespace Sys2Proof.Machine

/-- The bits of the STATUS byte by place. -/
theorem statusByteOf_getLsbD (x : Bool) (f : StatusFlags) :
    (statusByteOf x f).getLsbD 0 = x ∧ (statusByteOf x f).getLsbD 1 = f.valid ∧
      (statusByteOf x f).getLsbD 2 = f.clear ∧ (statusByteOf x f).getLsbD 3 = f.grant ∧
      (statusByteOf x f).getLsbD 4 = f.decerr ∧ (statusByteOf x f).getLsbD 5 = f.busyerr ∧
      (statusByteOf x f).getLsbD 6 = f.cmderr ∧ (statusByteOf x f).getLsbD 7 = false := by
  obtain ⟨a, b, c, d, e, g⟩ := f
  revert x a b c d e g
  decide

/-- The settle bit reaches bit 0 of the STATUS byte only. -/
theorem statusByteOf_settling (x y : Bool) (f : StatusFlags) (k : Nat) (hk : 0 < k) :
    (statusByteOf x f).getLsbD k = (statusByteOf y f).getLsbD k := by
  have hx := statusByteOf_getLsbD x f
  have hy := statusByteOf_getLsbD y f
  rcases Nat.lt_or_ge k 8 with h | h
  · interval_cases k <;> simp_all
  · rw [BitVec.getLsbD_of_ge _ _ h, BitVec.getLsbD_of_ge _ _ h]

/-- Raising CMDERR sets bit 6 of the STATUS byte. -/
theorem statusByteOf_raise_cmderr (x : Bool) (f : StatusFlags) :
    statusByteOf x (f.raise .cmderr) = statusByteOf x f ||| 0x40 := by
  obtain ⟨a, b, c, d, e, g⟩ := f
  revert x a b c d e g
  decide

/-- Raising BUSYERR sets bit 5 of the STATUS byte. -/
theorem statusByteOf_raise_busyerr (x : Bool) (f : StatusFlags) :
    statusByteOf x (f.raise .busyerr) = statusByteOf x f ||| 0x20 := by
  obtain ⟨a, b, c, d, e, g⟩ := f
  revert x a b c d e g
  decide

end Sys2Proof.Machine
end

