-- ==== Sys2Proof/Laws/State.lean ====
section
/-! SUPPORT. One lemma per field per update of State, so that no proof unfolds a record update. -/

namespace Sys2Proof.Machine

@[simp] theorem State.setFrm_frm (s : State) (f : Frame) : (s.setFrm f).frm = f := rfl
@[simp] theorem State.setFrm_fields (s : State) (f : Frame) : (s.setFrm f).fields = s.fields := rfl
@[simp] theorem State.setFrm_txlen (s : State) (f : Frame) : (s.setFrm f).txlen = s.txlen := rfl
@[simp] theorem State.setFrm_mode (s : State) (f : Frame) : (s.setFrm f).mode = s.mode := rfl
@[simp] theorem State.setFrm_settleCnt (s : State) (f : Frame) : (s.setFrm f).settleCnt = s.settleCnt := rfl
@[simp] theorem State.setFrm_flags (s : State) (f : Frame) : (s.setFrm f).flags = s.flags := rfl
@[simp] theorem State.setFrm_settleTicks (s : State) (f : Frame) : (s.setFrm f).settleTicks = s.settleTicks := rfl
@[simp] theorem State.setFrm_inputs (s : State) (f : Frame) : (s.setFrm f).inputs = s.inputs := rfl
@[simp] theorem State.setFrm_draw (s : State) (f : Frame) : (s.setFrm f).draw = s.draw := rfl
@[simp] theorem State.setFrm_out (s : State) (f : Frame) : (s.setFrm f).out = s.out := rfl

@[simp] theorem State.setFields_frm (s : State) (f : Fields) : (s.setFields f).frm = s.frm := rfl
@[simp] theorem State.setFields_fields (s : State) (f : Fields) : (s.setFields f).fields = f := rfl
@[simp] theorem State.setFields_txlen (s : State) (f : Fields) : (s.setFields f).txlen = s.txlen := rfl
@[simp] theorem State.setFields_mode (s : State) (f : Fields) : (s.setFields f).mode = s.mode := rfl
@[simp] theorem State.setFields_settleCnt (s : State) (f : Fields) : (s.setFields f).settleCnt = s.settleCnt := rfl
@[simp] theorem State.setFields_flags (s : State) (f : Fields) : (s.setFields f).flags = s.flags := rfl
@[simp] theorem State.setFields_settleTicks (s : State) (f : Fields) : (s.setFields f).settleTicks = s.settleTicks := rfl
@[simp] theorem State.setFields_inputs (s : State) (f : Fields) : (s.setFields f).inputs = s.inputs := rfl
@[simp] theorem State.setFields_draw (s : State) (f : Fields) : (s.setFields f).draw = s.draw := rfl
@[simp] theorem State.setFields_out (s : State) (f : Fields) : (s.setFields f).out = s.out := rfl

@[simp] theorem State.setTxlen_frm (s : State) (n : BitVec 3) : (s.setTxlen n).frm = s.frm := rfl
@[simp] theorem State.setTxlen_fields (s : State) (n : BitVec 3) : (s.setTxlen n).fields = s.fields := rfl
@[simp] theorem State.setTxlen_txlen (s : State) (n : BitVec 3) : (s.setTxlen n).txlen = n := rfl
@[simp] theorem State.setTxlen_mode (s : State) (n : BitVec 3) : (s.setTxlen n).mode = s.mode := rfl
@[simp] theorem State.setTxlen_settleCnt (s : State) (n : BitVec 3) : (s.setTxlen n).settleCnt = s.settleCnt := rfl
@[simp] theorem State.setTxlen_flags (s : State) (n : BitVec 3) : (s.setTxlen n).flags = s.flags := rfl
@[simp] theorem State.setTxlen_settleTicks (s : State) (n : BitVec 3) : (s.setTxlen n).settleTicks = s.settleTicks := rfl
@[simp] theorem State.setTxlen_inputs (s : State) (n : BitVec 3) : (s.setTxlen n).inputs = s.inputs := rfl
@[simp] theorem State.setTxlen_draw (s : State) (n : BitVec 3) : (s.setTxlen n).draw = s.draw := rfl
@[simp] theorem State.setTxlen_out (s : State) (n : BitVec 3) : (s.setTxlen n).out = s.out := rfl

@[simp] theorem State.setMode_frm (s : State) (m : ModeCode) : (s.setMode m).frm = s.frm := rfl
@[simp] theorem State.setMode_fields (s : State) (m : ModeCode) : (s.setMode m).fields = s.fields := rfl
@[simp] theorem State.setMode_txlen (s : State) (m : ModeCode) : (s.setMode m).txlen = s.txlen := rfl
@[simp] theorem State.setMode_mode (s : State) (m : ModeCode) : (s.setMode m).mode = m := rfl
@[simp] theorem State.setMode_settleCnt (s : State) (m : ModeCode) : (s.setMode m).settleCnt = s.settleCnt := rfl
@[simp] theorem State.setMode_flags (s : State) (m : ModeCode) : (s.setMode m).flags = s.flags := rfl
@[simp] theorem State.setMode_settleTicks (s : State) (m : ModeCode) : (s.setMode m).settleTicks = s.settleTicks := rfl
@[simp] theorem State.setMode_inputs (s : State) (m : ModeCode) : (s.setMode m).inputs = s.inputs := rfl
@[simp] theorem State.setMode_draw (s : State) (m : ModeCode) : (s.setMode m).draw = s.draw := rfl
@[simp] theorem State.setMode_out (s : State) (m : ModeCode) : (s.setMode m).out = s.out := rfl

@[simp] theorem State.setSettleCnt_frm (s : State) (n : Nat) : (s.setSettleCnt n).frm = s.frm := rfl
@[simp] theorem State.setSettleCnt_fields (s : State) (n : Nat) : (s.setSettleCnt n).fields = s.fields := rfl
@[simp] theorem State.setSettleCnt_txlen (s : State) (n : Nat) : (s.setSettleCnt n).txlen = s.txlen := rfl
@[simp] theorem State.setSettleCnt_mode (s : State) (n : Nat) : (s.setSettleCnt n).mode = s.mode := rfl
@[simp] theorem State.setSettleCnt_settleCnt (s : State) (n : Nat) : (s.setSettleCnt n).settleCnt = n := rfl
@[simp] theorem State.setSettleCnt_flags (s : State) (n : Nat) : (s.setSettleCnt n).flags = s.flags := rfl
@[simp] theorem State.setSettleCnt_settleTicks (s : State) (n : Nat) : (s.setSettleCnt n).settleTicks = s.settleTicks := rfl
@[simp] theorem State.setSettleCnt_inputs (s : State) (n : Nat) : (s.setSettleCnt n).inputs = s.inputs := rfl
@[simp] theorem State.setSettleCnt_draw (s : State) (n : Nat) : (s.setSettleCnt n).draw = s.draw := rfl
@[simp] theorem State.setSettleCnt_out (s : State) (n : Nat) : (s.setSettleCnt n).out = s.out := rfl

@[simp] theorem State.setFlags_frm (s : State) (f : StatusFlags) : (s.setFlags f).frm = s.frm := rfl
@[simp] theorem State.setFlags_fields (s : State) (f : StatusFlags) : (s.setFlags f).fields = s.fields := rfl
@[simp] theorem State.setFlags_txlen (s : State) (f : StatusFlags) : (s.setFlags f).txlen = s.txlen := rfl
@[simp] theorem State.setFlags_mode (s : State) (f : StatusFlags) : (s.setFlags f).mode = s.mode := rfl
@[simp] theorem State.setFlags_settleCnt (s : State) (f : StatusFlags) : (s.setFlags f).settleCnt = s.settleCnt := rfl
@[simp] theorem State.setFlags_flags (s : State) (f : StatusFlags) : (s.setFlags f).flags = f := rfl
@[simp] theorem State.setFlags_settleTicks (s : State) (f : StatusFlags) : (s.setFlags f).settleTicks = s.settleTicks := rfl
@[simp] theorem State.setFlags_inputs (s : State) (f : StatusFlags) : (s.setFlags f).inputs = s.inputs := rfl
@[simp] theorem State.setFlags_draw (s : State) (f : StatusFlags) : (s.setFlags f).draw = s.draw := rfl
@[simp] theorem State.setFlags_out (s : State) (f : StatusFlags) : (s.setFlags f).out = s.out := rfl

@[simp] theorem State.setOut_frm (s : State) (o : StepOut) : (s.setOut o).frm = s.frm := rfl
@[simp] theorem State.setOut_fields (s : State) (o : StepOut) : (s.setOut o).fields = s.fields := rfl
@[simp] theorem State.setOut_txlen (s : State) (o : StepOut) : (s.setOut o).txlen = s.txlen := rfl
@[simp] theorem State.setOut_mode (s : State) (o : StepOut) : (s.setOut o).mode = s.mode := rfl
@[simp] theorem State.setOut_settleCnt (s : State) (o : StepOut) : (s.setOut o).settleCnt = s.settleCnt := rfl
@[simp] theorem State.setOut_flags (s : State) (o : StepOut) : (s.setOut o).flags = s.flags := rfl
@[simp] theorem State.setOut_settleTicks (s : State) (o : StepOut) : (s.setOut o).settleTicks = s.settleTicks := rfl
@[simp] theorem State.setOut_inputs (s : State) (o : StepOut) : (s.setOut o).inputs = s.inputs := rfl
@[simp] theorem State.setOut_draw (s : State) (o : StepOut) : (s.setOut o).draw = s.draw := rfl
@[simp] theorem State.setOut_out (s : State) (o : StepOut) : (s.setOut o).out = o := rfl

@[simp] theorem State.setEnv_frm (s : State) (ins : List StepInput) (n : Nat) : (s.setEnv ins n).frm = s.frm := rfl
@[simp] theorem State.setEnv_fields (s : State) (ins : List StepInput) (n : Nat) : (s.setEnv ins n).fields = s.fields := rfl
@[simp] theorem State.setEnv_txlen (s : State) (ins : List StepInput) (n : Nat) : (s.setEnv ins n).txlen = s.txlen := rfl
@[simp] theorem State.setEnv_mode (s : State) (ins : List StepInput) (n : Nat) : (s.setEnv ins n).mode = s.mode := rfl
@[simp] theorem State.setEnv_settleCnt (s : State) (ins : List StepInput) (n : Nat) : (s.setEnv ins n).settleCnt = s.settleCnt := rfl
@[simp] theorem State.setEnv_flags (s : State) (ins : List StepInput) (n : Nat) : (s.setEnv ins n).flags = s.flags := rfl
@[simp] theorem State.setEnv_settleTicks (s : State) (ins : List StepInput) (n : Nat) : (s.setEnv ins n).settleTicks = s.settleTicks := rfl
@[simp] theorem State.setEnv_inputs (s : State) (ins : List StepInput) (n : Nat) : (s.setEnv ins n).inputs = ins := rfl
@[simp] theorem State.setEnv_draw (s : State) (ins : List StepInput) (n : Nat) : (s.setEnv ins n).draw = n := rfl
@[simp] theorem State.setEnv_out (s : State) (ins : List StepInput) (n : Nat) : (s.setEnv ins n).out = s.out := rfl

end Sys2Proof.Machine
end

