-- ==== Sys2Proof/Laws/Ops.lean ====
section
/-! SUPPORT. For each shared operation, what it can do, said once: later proofs cite these lemmas and do not unfold the
operations. -/

namespace Sys2Proof.Machine

/-! ### Inputs -/

@[simp] theorem nextInput_beginStep (s : State) : s.beginStep.nextInput = s.nextInput := rfl

theorem nextInput_of_inputs {s : State} {i : StepInput} {is : List StepInput} (h : s.inputs = i :: is) :
    s.nextInput = i := by
  simp [State.nextInput, h]

/-! ### Around the host operation -/

@[simp] theorem beginStep_frm (s : State) : s.beginStep.frm = s.frm := rfl
@[simp] theorem beginStep_fields (s : State) : s.beginStep.fields = s.fields := rfl
@[simp] theorem beginStep_txlen (s : State) : s.beginStep.txlen = s.txlen := rfl
@[simp] theorem beginStep_mode (s : State) : s.beginStep.mode = s.mode := rfl
@[simp] theorem beginStep_settleCnt (s : State) : s.beginStep.settleCnt = s.settleCnt := rfl
@[simp] theorem beginStep_flags (s : State) : s.beginStep.flags = s.flags := rfl
@[simp] theorem beginStep_settleTicks (s : State) : s.beginStep.settleTicks = s.settleTicks := rfl
@[simp] theorem beginStep_inputs (s : State) : s.beginStep.inputs = s.inputs := rfl
@[simp] theorem beginStep_draw (s : State) : s.beginStep.draw = s.draw := rfl
@[simp] theorem beginStep_out (s : State) : s.beginStep.out = { rdata := none, txGrant := false } := rfl

@[simp] theorem endStep_frm (s : State) : s.endStep.frm = s.frm := rfl
@[simp] theorem endStep_fields (s : State) : s.endStep.fields = s.fields := rfl
@[simp] theorem endStep_txlen (s : State) : s.endStep.txlen = s.txlen := rfl
@[simp] theorem endStep_mode (s : State) : s.endStep.mode = s.mode := rfl
@[simp] theorem endStep_settleCnt (s : State) : s.endStep.settleCnt = s.settleCnt := rfl
@[simp] theorem endStep_flags (s : State) : s.endStep.flags = s.flags := rfl
@[simp] theorem endStep_settleTicks (s : State) : s.endStep.settleTicks = s.settleTicks := rfl
@[simp] theorem endStep_inputs (s : State) : s.endStep.inputs = s.inputs.tail := rfl
@[simp] theorem endStep_draw (s : State) : s.endStep.draw = s.draw + 1 := rfl
@[simp] theorem endStep_out (s : State) : s.endStep.out = s.out := rfl

/-- The tick changes the settle counter and nothing else. -/
theorem applyTick_eq (s : State) (tick accepted : Bool) :
    s.applyTick tick accepted =
      s.setSettleCnt (if tick = true ∧ accepted = false then s.settleCnt - 1 else s.settleCnt) := by
  cases tick <;> cases accepted <;> rfl

/-! ### Writing the window -/

/-- A host write to a register other than CMD changes at most FRM and the fields. -/
theorem writeReg_eq (s : State) (r : WinReg) (v : Byte) :
    ∃ f g, s.writeReg r v = (s.setFrm f).setFields g := by
  cases r <;> first
    | exact ⟨_, s.fields, rfl⟩
    | exact ⟨s.frm, _, rfl⟩

/-! ### Meanings -/

/-- Every command answers a next state, in which only FRM, the fields, TXLEN, MODE, SETTLE_CNT, the flags and the grant
output may differ. -/
theorem exec_next (i : Instr) (s : State) :
    ∃ t, exec i s = .next t ∧ t.settleTicks = s.settleTicks ∧ t.inputs = s.inputs ∧ t.draw = s.draw ∧
      t.out.rdata = s.out.rdata := by
  cases i with
  | setMode m =>
    refine ⟨_, rfl, ?_⟩
    unfold State.requestMode
    split <;> exact ⟨rfl, rfl, rfl, rfl⟩
  | _ => exact ⟨_, rfl, rfl, rfl, rfl, rfl⟩

/-- A command other than SET_MODE leaves MODE and SETTLE_CNT alone. -/
theorem exec_keeps_mode {i : Instr} {s t : State} (h : exec i s = .next t) (hi : isSetMode i = false) :
    t.mode = s.mode ∧ t.settleCnt = s.settleCnt := by
  cases i <;> simp [isSetMode] at hi <;> injection h with h <;> subst h <;> exact ⟨rfl, rfl⟩

/-- SET_MODE while settling only raises BUSYERR. -/
theorem requestMode_settling {s : State} (m : ModeCode) (h : s.settling = true) :
    s.requestMode m = s.flagError .busyerr := by
  simp [State.requestMode, h]

/-- SET_MODE otherwise enters the mode. -/
theorem requestMode_settled {s : State} (m : ModeCode) (h : s.settling = false) :
    s.requestMode m = s.enterMode m := by
  simp [State.requestMode, h]

/-- A state is settling exactly when its counter is not 0. -/
theorem settling_iff (s : State) : s.settling = true ↔ s.settleCnt ≠ 0 := by
  simp [State.settling]

/-! ### The step -/

/-- Every host operation answers one of five things. -/
theorem perform_cases (op : Option HostOp) (s : State) :
    (op = none ∧ perform op s = .next s) ∨
    (∃ off, op = some (.read off) ∧
      perform op s = .next (s.setOut { s.out with rdata := some (s.busRead off) })) ∨
    (∃ off v, op = some (.write off v) ∧ off ≠ cmdOffset ∧ perform op s = .next (s.writeReg (regAt off) v)) ∨
    (∃ v i, op = some (.write cmdOffset v) ∧ decode v = .command i ∧ perform op s = exec i s) ∨
    (∃ v why, op = some (.write cmdOffset v) ∧ decode v = .reserved why ∧
      perform op s = .next (s.flagError .cmderr)) := by
  match op with
  | none => exact .inl ⟨rfl, rfl⟩
  | some (.read off) => exact .inr (.inl ⟨off, rfl, rfl⟩)
  | some (.write off v) =>
    by_cases h : off = cmdOffset
    · subst h
      cases hd : decode v with
      | command i => exact .inr (.inr (.inr (.inl ⟨v, i, rfl, hd, by simp [perform, busWrite, executeByte, hd]⟩)))
      | reserved why =>
        exact .inr (.inr (.inr (.inr ⟨v, why, rfl, hd, by simp [perform, busWrite, executeByte, hd]⟩)))
    · exact .inr (.inr (.inl ⟨off, v, rfl, h, by simp [perform, busWrite, h]⟩))

/-- A step is a reset step, or its host operation answers a state that the tick and the end of the step then change. -/
theorem step_cases {s t : State} (h : step s = .next t) :
    (s.nextInput.rst = true ∧ t = s.takeReset.endStep) ∨
    (s.nextInput.rst = false ∧ ∃ u, perform s.nextInput.op s.beginStep = .next u ∧
      t = (u.applyTick s.nextInput.tick (s.acceptsMode s.nextInput.op)).endStep) := by
  unfold step stepOn hostStep at h
  cases hr : s.nextInput.rst
  · refine .inr ⟨rfl, ?_⟩
    simp only [hr, Bool.false_eq_true, if_false] at h
    cases hp : perform s.nextInput.op s.beginStep with
    | next u => rw [hp] at h; injection h with h; exact ⟨u, rfl, h.symm⟩
    | fault r => rw [hp] at h; injection h
    | refused r => rw [hp] at h; injection h
  · simp only [hr, if_true] at h
    injection h with h
    exact .inl ⟨rfl, h.symm⟩

end Sys2Proof.Machine
end

