-- ==== Sys2Proof/Laws/PerInstr.lean ====
section
/-! SUPPORT. A law per command: its byte lies on its own row of spec/opcode_table.json. -/

namespace Sys2Proof.Laws.OnTableRow

/-- The "mask" of a command's row of spec/opcode_table.json. -/
def rowMask : Instr → Byte
  | .nop => 0xFF
  | .pack => 0xFF
  | .packPersist => 0xFF
  | .unpack => 0xFF
  | .reqRead => 0xFF
  | .reqReset => 0xFF
  | .setMode _ => 0xFC
  | .poll => 0xFF
  | .gsend => 0xFF
  | .clrErr => 0xFF

/-- The "match" of a command's row of spec/opcode_table.json. -/
def rowMatch : Instr → Byte
  | .nop => 0x00
  | .pack => 0x10
  | .packPersist => 0x20
  | .unpack => 0x30
  | .reqRead => 0x40
  | .reqReset => 0x50
  | .setMode _ => 0x60
  | .poll => 0x70
  | .gsend => 0x80
  | .clrErr => 0x90

/-- The command's byte, under its row's mask, is its row's match, and the command is well formed. -/
def Statement (i : Instr) : Prop := encode i &&& rowMask i = rowMatch i ∧ (i.wellFormed = true)

theorem nop : Statement .nop := by unfold Statement; decide
theorem pack : Statement .pack := by unfold Statement; decide
theorem packPersist : Statement .packPersist := by unfold Statement; decide
theorem unpack : Statement .unpack := by unfold Statement; decide
theorem reqRead : Statement .reqRead := by unfold Statement; decide
theorem reqReset : Statement .reqReset := by unfold Statement; decide
theorem setMode (m : ModeCode) : Statement (.setMode m) := by unfold Statement; revert m; decide
theorem poll : Statement .poll := by unfold Statement; decide
theorem gsend : Statement .gsend := by unfold Statement; decide
theorem clrErr : Statement .clrErr := by unfold Statement; decide

end Sys2Proof.Laws.OnTableRow
end

