-- ==== Sys2Proof/Laws/Step.lean ====
section
/-! SUPPORT. What one step can do, said once: every later proof about steps is a case analysis on `StepCase`. And what a run
of several steps is. -/

namespace Sys2Proof.Machine

theorem commandOf_cmd (v : Byte) : commandOf (some (.write cmdOffset v)) = (decode v).command? := by
  simp [commandOf]

theorem commandOf_other {off : Offset} (v : Byte) (h : off ≠ cmdOffset) : commandOf (some (.write off v)) = none := by
  simp [commandOf, h]

theorem acceptsMode_command {v : Byte} {i : Instr} (s : State) (h : decode v = .command i) :
    s.acceptsMode (some (.write cmdOffset v)) = (isSetMode i && !s.settling) := by
  simp [State.acceptsMode, commandOf_cmd, h, Decoded.command?]

theorem acceptsMode_reserved {v : Byte} {why : ReservedByte} (s : State) (h : decode v = .reserved why) :
    s.acceptsMode (some (.write cmdOffset v)) = false := by
  simp [State.acceptsMode, commandOf_cmd, h, Decoded.command?]

theorem acceptsMode_other {off : Offset} (s : State) (v : Byte) (h : off ≠ cmdOffset) :
    s.acceptsMode (some (.write off v)) = false := by
  simp [State.acceptsMode, commandOf_other v h]

/-- The state `u` with the tick of the step that started from `s`, in a step that accepts no SET_MODE. -/
def State.afterTick (s u : State) : State :=
  (u.setSettleCnt (if s.nextInput.tick = true then s.settleCnt - 1 else s.settleCnt)).endStep

/-- The eight ways a step goes. -/
inductive StepCase (s t : State) : Prop where
  | reset (h : s.nextInput.rst = true) (e : t = s.takeReset.endStep)
  | idle (h : s.nextInput.rst = false) (ho : s.nextInput.op = none) (e : t = s.afterTick s.beginStep)
  | read (off : Offset) (h : s.nextInput.rst = false) (ho : s.nextInput.op = some (.read off))
      (e : t = s.afterTick (s.setOut { rdata := some (s.busRead off), txGrant := false }))
  | write (off : Offset) (v : Byte) (h : s.nextInput.rst = false) (hne : off ≠ cmdOffset)
      (ho : s.nextInput.op = some (.write off v)) (e : t = s.afterTick (s.beginStep.writeReg (regAt off) v))
  | reservedByte (v : Byte) (why : ReservedByte) (h : s.nextInput.rst = false)
      (ho : s.nextInput.op = some (.write cmdOffset v)) (hd : decode v = .reserved why)
      (e : t = s.afterTick (s.beginStep.flagError .cmderr))
  | modeAccepted (v : Byte) (m : ModeCode) (h : s.nextInput.rst = false)
      (ho : s.nextInput.op = some (.write cmdOffset v)) (hd : decode v = .command (.setMode m)) (hc : s.settleCnt = 0)
      (e : t = (s.beginStep.enterMode m).endStep)
  | modeRefused (v : Byte) (m : ModeCode) (h : s.nextInput.rst = false)
      (ho : s.nextInput.op = some (.write cmdOffset v)) (hd : decode v = .command (.setMode m)) (hc : s.settleCnt ≠ 0)
      (e : t = s.afterTick (s.beginStep.flagError .busyerr))
  | command (v : Byte) (i : Instr) (u : State) (h : s.nextInput.rst = false)
      (ho : s.nextInput.op = some (.write cmdOffset v)) (hd : decode v = .command i) (hi : isSetMode i = false)
      (hu : exec i s.beginStep = .next u) (e : t = s.afterTick u)

theorem applyTick_afterTick {s u : State} (hc : u.settleCnt = s.settleCnt) :
    (u.applyTick s.nextInput.tick false).endStep = s.afterTick u := by
  rw [applyTick_eq, hc]
  simp [State.afterTick]

/-- SET_MODE and no other command is one. -/
theorem eq_setMode_of_isSetMode {i : Instr} (h : isSetMode i = true) : ∃ m, i = .setMode m := by
  cases i <;> simp [isSetMode] at h
  exact ⟨_, rfl⟩

/-- A step goes one of the eight ways. -/
theorem stepCase_of_step {s t : State} (hs : step s = .next t) : StepCase s t := by
  rcases step_cases hs with ⟨h, e⟩ | ⟨h, u, hp, e⟩
  · exact .reset h e
  rcases perform_cases s.nextInput.op s.beginStep with ⟨ho, hq⟩ | ⟨off, ho, hq⟩ | ⟨off, v, ho, hne, hq⟩ |
    ⟨v, i, ho, hd, hq⟩ | ⟨v, why, ho, hd, hq⟩
  · injection hp.symm.trans hq with hu
    subst hu
    exact .idle h ho (by rw [e, ho]; exact applyTick_afterTick rfl)
  · injection hp.symm.trans hq with hu
    subst hu
    exact .read off h ho (by rw [e, ho]; exact applyTick_afterTick rfl)
  · injection hp.symm.trans hq with hu
    subst hu
    refine .write off v h hne ho ?_
    rw [e, ho, acceptsMode_other s v hne]
    obtain ⟨f, g, hw⟩ := writeReg_eq s.beginStep (regAt off) v
    exact applyTick_afterTick (by rw [hw]; rfl)
  · have hx := hp.symm.trans hq
    rw [ho, acceptsMode_command s hd] at e
    cases hi : isSetMode i
    · rw [hi] at e
      exact .command v i u h ho hd hi hx.symm
        (by rw [e]; exact applyTick_afterTick (exec_keeps_mode hx.symm hi).2)
    · obtain ⟨m, rfl⟩ := eq_setMode_of_isSetMode hi
      injection hx with hu
      by_cases hc : s.settleCnt = 0
      · refine .modeAccepted v m h ho hd hc ?_
        rw [e, hu, requestMode_settled m (by simp [State.settling, hc])]
        simp [isSetMode, State.settling, hc, State.applyTick]
      · refine .modeRefused v m h ho hd hc ?_
        rw [e, hu, requestMode_settling m (by simp [State.settling, hc])]
        simp only [isSetMode, (settling_iff s).2 hc, Bool.not_true, Bool.and_false]
        exact applyTick_afterTick rfl
  · injection hp.symm.trans hq with hu
    subst hu
    refine .reservedByte v why h ho hd ?_
    rw [e, ho, acceptsMode_reserved s hd]
    exact applyTick_afterTick rfl

/-- Every host operation answers a next state. -/
theorem perform_next (op : Option HostOp) (s : State) : ∃ u, perform op s = .next u := by
  rcases perform_cases op s with ⟨_, hq⟩ | ⟨_, _, hq⟩ | ⟨_, _, _, _, hq⟩ | ⟨_, i, _, _, hq⟩ | ⟨_, _, _, _, hq⟩
  · exact ⟨_, hq⟩
  · exact ⟨_, hq⟩
  · exact ⟨_, hq⟩
  · obtain ⟨t, ht, _⟩ := exec_next i s
    exact ⟨t, hq.trans ht⟩
  · exact ⟨_, hq⟩

/-- Every step answers a next state. -/
theorem step_next (s : State) : ∃ t, step s = .next t := by
  unfold step stepOn hostStep
  split
  · exact ⟨_, rfl⟩
  · obtain ⟨u, hu⟩ := perform_next s.nextInput.op s.beginStep
    exact ⟨_, by rw [hu]; rfl⟩

/-- A run whose first step is known goes on from the state it leads to. -/
theorem run_of_step (M : Host.Core) {k : Nat} {s t : M.State} (h : M.step s = .next t) :
    Host.Core.run M (k + 1) s = Host.Core.run M k t := by
  rw [Host.Core.run, h]

/-- The same for this machine, in its own names. -/
theorem run_core_of_step {k : Nat} {s t : State} (h : step s = .next t) :
    Host.Core.run core (k + 1) s = Host.Core.run core k t :=
  run_of_step core h

end Sys2Proof.Machine
end

