-- ==== Sys2Proof/Tests/Slice0.lean ====
section
/-! SUPPORT. The model's own tests. Expected results come from spec/: the encodings of 30_encoding.md and the vectors V-… of
95_test_vectors.md. And, for each obligation with hypotheses, concrete values that meet them. -/

namespace Sys2Proof.Tests

open Sys2Proof.Machine Sys2Proof.Claims

/-! ### Decoding: words written out from R86, R87 (`op[7:4]`, `arg[3:0]`) -/

theorem test_decode_codec_words :
    decode 0b0000_0000 = .command .nop ∧ decode 0b0001_0000 = .command .pack ∧
      decode 0b0010_0000 = .command .packPersist ∧ decode 0b0011_0000 = .command .unpack ∧
      decode 0b0100_0000 = .command .reqRead ∧ decode 0b0101_0000 = .command .reqReset ∧
      decode 0b1001_0000 = .command .clrErr := by decide

theorem test_decode_set_mode_words :
    decode 0b0110_0000 = .command (.setMode 0b00) ∧ decode 0b0110_0001 = .command (.setMode 0b01) ∧
      decode 0b0110_0010 = .command (.setMode 0b10) ∧ decode 0b0110_0011 = .command (.setMode 0b11) := by decide

theorem test_decode_gate_words :
    decode 0b0111_0000 = .command .poll ∧ decode 0b1000_0000 = .command .gsend := by decide

/-- The reserved rows of vector table 2.3. -/
theorem test_decode_reserved_words :
    decode 0x01 = .reserved (.operand 0x0 0x1) ∧ decode 0x0F = .reserved (.operand 0x0 0xF) ∧
      decode 0x5F = .reserved (.operand 0x5 0xF) ∧ decode 0x64 = .reserved (.operand 0x6 0x4) ∧
      decode 0x6C = .reserved (.operand 0x6 0xC) ∧ decode 0x91 = .reserved (.operand 0x9 0x1) ∧
      decode 0xA0 = .reserved (.opcode 0xA) ∧ decode 0xFF = .reserved (.opcode 0xF) := by decide

/-- "13 legal, 243 reserved" (table 2.3). -/
theorem test_decode_legal_count :
    ((List.range 256).filter fun n => (decodeTableWord 8 n).isSome).length = 13 := by decide

theorem test_decode_table_word :
    decodeTableWord 8 0x63 = some (.setMode 3) ∧ decodeTableWord 8 0x64 = none ∧ decodeTableWord 16 0x10 = none := by
  decide

/-- Words of the tables of R102 and of program P3 (step 7, `POLL +T @aux=0`). -/
theorem test_host_words_of_commands :
    decodeHostWord 0x5F20 false = .input (commandStep .packPersist false false) ∧
      decodeHostWord 0x5F63 true = .input (commandStep (.setMode 3) false true) ∧
      decodeHostWord 0x7F70 false = .input (commandStep .poll true false) ∧
      encodeHostWord (commandStep .clrErr false false) = 0x5F90 := by decide

/-- Words of the table of R101 and of program P1 (steps 2 and 14). -/
theorem test_host_words_of_the_bus :
    decodeHostWord 0x8000 false = .input { rst := false, op := none, tick := false, aux := false } ∧
      decodeHostWord 0xA000 false = .input { rst := false, op := none, tick := true, aux := false } ∧
      decodeHostWord 0xC000 false = .input { rst := true, op := none, tick := false, aux := false } ∧
      decodeHostWord 0x4912 false = .input (writeStep 0x09 0x12 false false) ∧
      decodeHostWord 0x0600 false = .input { rst := false, op := some (.read 0x06), tick := false, aux := false } := by
  decide

/-! ### Ill-formed terms, which the checks refuse -/

theorem smoke_read_word_with_data : hostWordWellFormed 0x0001 = false ∧ hostWordProblem 0x0001 = some .readData := by
  decide

theorem smoke_idle_word_with_offset : hostWordWellFormed 0x8100 = false ∧ hostWordProblem 0x8100 = some .idleBits := by
  decide

theorem smoke_idle_word_with_data : hostWordWellFormed 0x8001 = false ∧ hostWordProblem 0x8001 = some .idleBits := by
  decide

theorem smoke_reset_word_with_data : hostWordWellFormed 0xC001 = false ∧ hostWordProblem 0xC001 = some .resetBits := by
  decide

theorem smoke_reset_step_with_operation :
    StepInput.wellFormed { rst := true, op := some (.read 0x1D), tick := false, aux := false } = false := by decide

/-! ### States -/

/-- S0 of 95_test_vectors.md, with SETTLE_TICKS = 3, some frame, and the field registers of the example of R130. -/
def s0 : State where
  frm := { b0 := 0x11, b1 := 0x22, b2 := 0x33, b3 := 0x44, b4 := 0x55, b5 := 0x66 }
  fields :=
    { marker := 0x5A, addh := 0x12, addl := 0x34, parity := 0, urate := 3, arate := 2, chan := 0x17, txmode := 0,
      pullup := 1, wake := 0, fec := 1, power := 0 }
  txlen := 0
  mode := 0
  settleCnt := 0
  flags := StatusFlags.allClear
  settleTicks := 3
  inputs := []
  draw := 0
  out := { rdata := none, txGrant := false }

/-- S0 in Settling(m, n). -/
def settling (m : ModeCode) (n : Nat) : State := { s0 with mode := m, settleCnt := n }

/-- The state with one coming step: a bus operation, a tick, a busy-line level. -/
def given (s : State) (op : HostOp) (tick aux : Bool) : State :=
  { s with inputs := [{ rst := false, op := some op, tick := tick, aux := aux }] }

/-- The state whose coming step writes the byte `v` to CMD. -/
def givenCmd (s : State) (v : Byte) (tick aux : Bool) : State := given s (.write 0x1F v) tick aux

/-- The state whose coming step does no bus operation. -/
def givenTick (s : State) (tick : Bool) : State :=
  { s with inputs := [{ rst := false, op := none, tick := tick, aux := false }] }

/-- The state whose coming step is a reset step, with an operation and a tick that are ignored. -/
def givenReset (s : State) : State :=
  { s with inputs := [{ rst := true, op := some (.write 0x1F 0x63), tick := true, aux := true }] }

/-- A view of the next state of a step. -/
def view {α : Type} (s : State) (f : State → α) : Option α :=
  match step s with
  | .next t => some (f t)
  | .fault _ => none
  | .refused _ => none

/-! ### One step each -/

/-- V-K1. -/
theorem test_nop : view (givenCmd s0 0x00 false false) (fun t => (t.statusByte, t.frm, t.settleCnt)) =
    some (0x00, s0.frm, 0) := by decide

/-- V-K3: the marker is verbatim. -/
theorem test_pack : view (givenCmd s0 0x10 false false) (fun t => (t.frm.toList, t.txlen, t.statusByte)) =
    some ([0x5A, 0x12, 0x34, 0x1A, 0x17, 0x44], 6, 0x00) := by decide

/-- V-C4, V-C8: every field of the two packed bytes in its place. -/
theorem test_pack_bit_fields :
    packSpeed 2 4 5 = 0xA5 ∧ packOptions 1 0 4 1 1 = 0xA5 ∧ packOptions 0 1 3 0 2 = 0x5A := by decide

/-- V-K4: FRM[0] is forced, F_MARKER is kept. -/
theorem test_pack_persist : view (givenCmd s0 0x20 false false) (fun t => (t.requestBytes, t.fields.marker)) =
    some ([0xC0, 0x12, 0x34, 0x1A, 0x17, 0x44], 0x5A) := by decide

/-- V-K6. -/
theorem test_unpack_invalid_marker :
    view (givenCmd { s0 with frm := ⟨0xC1, 0x00, 0x02, 0xA5, 0x04, 0x5A⟩ } 0x30 false false)
        (fun t => (t.fields, t.statusByte)) =
      some (⟨0xC1, 0x00, 0x02, 2, 4, 5, 0x04, 0, 1, 3, 0, 2⟩, 0x10) := by decide

/-- V-K7: VALID rises and DECERR stays. -/
theorem test_unpack_valid_marker :
    view (givenCmd { s0 with frm := ⟨0xC0, 0x12, 0x34, 0x1A, 0x17, 0x44⟩,
                             flags := { StatusFlags.allClear with decerr := true } } 0x30 false false)
        (fun t => (t.fields, t.statusByte)) =
      some (⟨0xC0, 0x12, 0x34, 0, 3, 2, 0x17, 0, 1, 0, 1, 0⟩, 0x12) := by decide

/-- V-K8. -/
theorem test_req_read : view (givenCmd s0 0x40 false false) (fun t => (t.frm.toList, t.txlen)) =
    some ([0xC1, 0xC1, 0xC1, 0x44, 0x55, 0x66], 3) := by decide

/-- V-K9. -/
theorem test_req_reset : view (givenCmd s0 0x50 false false) (fun t => (t.frm.toList, t.txlen)) =
    some ([0xC4, 0xC4, 0xC4, 0x44, 0x55, 0x66], 3) := by decide

/-- V-K10: STATUS 0x73. -/
theorem test_clr_err :
    view (givenCmd { settling 3 1 with flags := ⟨true, false, false, true, true, true⟩ } 0x90 false false)
        State.statusByte = some 0x03 := by decide

/-- V-M4: the tick of an accepted SET_MODE is dropped. -/
theorem test_set_mode_accepted :
    view (givenCmd s0 0x61 true false) (fun t => (t.mode, t.modeA, t.modeB, t.settleCnt, t.statusByte)) =
      some (1, true, false, 3, 0x01) := by decide

/-- V-M3: refused, and the tick applies. -/
theorem test_set_mode_refused :
    view (givenCmd (settling 3 3) 0x60 true false) (fun t => (t.mode, t.settleCnt, t.statusByte)) =
      some (3, 2, 0x21) := by decide

/-- V-G3. -/
theorem test_poll_while_settling : view (givenCmd (settling 3 2) 0x70 false true) State.statusByte = some 0x05 := by
  decide

/-- V-G6. -/
theorem test_poll_keeps_grant :
    view (givenCmd { s0 with flags := { StatusFlags.allClear with clear := true, grant := true } } 0x70 false false)
        State.statusByte = some 0x08 := by decide

/-- Table 2.5 for aux = 1 and no settling: every mode but Program is granted. -/
theorem test_gsend_modes :
    ([0, 1, 2, 3] : List ModeCode).map
        (fun m => view (givenCmd (settling m 0) 0x80 false true) (fun t => (t.out.txGrant, t.statusByte))) =
      [some (true, 0x0C), some (true, 0x0C), some (true, 0x0C), some (false, 0x04)] := by decide

/-- V-G5, with the row of table 2.5 for aux = 1 while settling. -/
theorem test_gsend_dropped :
    view (givenCmd { s0 with flags := { StatusFlags.allClear with clear := true, grant := true } } 0x80 false false)
        (fun t => (t.out.txGrant, t.statusByte)) = some (false, 0x00) ∧
      view (givenCmd (settling 0 1) 0x80 false true) (fun t => (t.out.txGrant, t.statusByte)) = some (false, 0x05) := by
  decide

/-- V-M8: a reserved byte while settling sets only CMDERR. -/
theorem test_reserved_byte : view (givenCmd (settling 3 2) 0x64 false false) (fun t => (t.settleCnt, t.statusByte)) =
    some (2, 0x41) := by decide

/-- V-M5, V-M6. -/
theorem test_tick :
    view (givenTick (settling 1 1) true) (fun t => (t.settleCnt, t.statusByte)) = some (0, 0x00) ∧
      view (givenTick (settling 1 0) true) State.settleCnt = some 0 := by decide

/-- V-M9: the read sees the state before the tick. -/
theorem test_read_status_with_tick :
    view (given (settling 3 2) (.read 0x1D) true false) (fun t => (t.out.rdata, t.settleCnt)) =
      some (some 0x01, 1) := by decide

/-- V-B1, V-B2. -/
theorem test_read_zero_offsets :
    ([0x1F, 0x07, 0x14, 0x1B, 0x1E] : List Offset).map (s0.busRead ·) = [0, 0, 0, 0, 0] := by decide

/-- V-K12, V-K13, V-K14. -/
theorem test_write_masks :
    view (given s0 (.write 0x0B 0xFF) false false) (·.busRead 0x0B) = some 0x03 ∧
      view (given s0 (.write 0x0D 0x09) false false) (·.busRead 0x0D) = some 0x01 ∧
      view (given s0 (.write 0x0F 0xFE) false false) (·.busRead 0x0F) = some 0x00 := by decide

/-- V-B3, V-B4, V-B5. -/
theorem test_write_read_only :
    view (given s0 (.write 0x1D 0xFF) false false) State.statusByte = some 0x00 ∧
      view (given s0 (.write 0x1C 0x03) false false) State.mode = some 0 ∧
      view (given { s0 with txlen := 3 } (.write 0x06 0x06) false false) State.txlen = some 3 := by decide

/-- V-M10, with the lines, TXLEN and the output of R230. -/
theorem test_reset :
    view (givenReset (settling 3 1)) (fun t => (t.mode, t.settleCnt, t.statusByte, t.txlen, t.out)) =
      some (0, 3, 0x01, 0, { rdata := some 0x00, txGrant := false }) := by decide

/-- V-C13, and the boundary pairs of E3. -/
theorem test_address :
    addr16 0x12 0x34 = 0x1234 ∧ split16 0x1234 = (0x12, 0x34) ∧ addr16 0xFF 0xFF = 0xFFFF ∧ addr16 0 0 = 0 := by
  decide

/-- The step after `withFetchWord` runs the command placed (R133), with the tick that the coming step had. -/
theorem test_with_fetch_word :
    view ((givenTick (settling 2 2) true).withFetchWord 8 0x40) (fun t => (t.requestBytes, t.settleCnt)) =
      some ([0xC1, 0xC1, 0xC1], 1) := by decide

/-- After reset, each command placed by `withFetchWord` has its step. -/
theorem test_commands_run_after_reset :
    ∀ w ∈ [0x00, 0x10, 0x20, 0x30, 0x40, 0x50, 0x60, 0x63, 0x70, 0x80, 0x90],
      (view (State.reset.withFetchWord 8 w) fun _ => true) = some true := by decide

/-! ### The hypotheses of the obligations can be met -/

theorem witness_DecodeOfEncodeIsTheCommand : (Instr.setMode 3).wellFormed = true ∧ Instr.nop.wellFormed = true := by
  decide

theorem witness_LegalByteIsTheBytesOfItsCommand : decode 0x63 = .command (.setMode 3) ∧ decode 0x90 = .command .clrErr := by
  decide

/-- The two ends of each range of reserved digits, and their legal neighbours. -/
theorem witness_ReservedBytesOnlySetCmderr :
    ReservedDigits 0xA0 ∧ ReservedDigits 0xFF ∧ ReservedDigits 0x01 ∧ ReservedDigits 0x9F ∧ ReservedDigits 0x64 ∧
      ReservedDigits 0x6F ∧ ¬ ReservedDigits 0x00 ∧ ¬ ReservedDigits 0x90 ∧ ¬ ReservedDigits 0x60 ∧
      ¬ ReservedDigits 0x63 := by
  unfold ReservedDigits
  refine ⟨?_, ?_, ?_, ?_, ?_, ?_, ?_, ?_, ?_, ?_⟩ <;> decide

theorem witness_HostWordNotationRoundTrips :
    StepInput.wellFormed (commandStep (.setMode 3) true false) = true ∧
      decodeHostWord 0x7F63 false = .input (commandStep (.setMode 3) true false) := by decide

theorem witness_ReservedOffsetsReadZeroAndIgnoreWrites :
    IsReservedOffset 0x07 ∧ IsReservedOffset 0x14 ∧ IsReservedOffset 0x1B ∧ IsReservedOffset 0x1E ∧
      ¬ IsReservedOffset 0x13 ∧ ¬ IsReservedOffset 0x1C := by
  unfold IsReservedOffset
  decide

/-- The first and last offsets of FRM and of the field registers, and their neighbours. -/
theorem witness_DataRegisterWriteStoresMaskedByte :
    IsFrmOffset 0x00 ∧ IsFrmOffset 0x05 ∧ IsFieldOffset 0x08 ∧ IsFieldOffset 0x13 ∧
      ¬ (IsFrmOffset 0x06 ∨ IsFieldOffset 0x06) ∧
      ¬ (IsFrmOffset 0x07 ∨ IsFieldOffset 0x07) ∧ ¬ (IsFrmOffset 0x14 ∨ IsFieldOffset 0x14) := by
  unfold IsFrmOffset IsFieldOffset
  decide

theorem witness_HostReadReturnsTheByteAndChangesNothing :
    (given (settling 3 2) (.read 0x1D) true false).nextInput.rst = false ∧
      (given (settling 3 2) (.read 0x1D) true false).nextInput.op = some (.read 0x1D) ∧
      (given s0 (.read 0x00) false true).nextInput.op = some (.read 0x00) ∧
      (given s0 (.read 0x00) false true).nextInput.tick = false := by decide

theorem witness_RegisterWritesAreIdempotent : ∃ t, busWrite 0x0B 0xFF s0 = .next t ∧ (0x0B : Offset) ≠ 0x1F :=
  ⟨_, rfl, by decide⟩

/-- The last address of the window, and the first one past it. -/
theorem witness_WindowStandsAtBase :
    windowOffset (windowAddress 0x1F) = some 0x1F ∧ windowOffset (Config.base + 32) = none := by
  simp [windowOffset, windowAddress]

theorem witness_PackAndUnpackAreInverse : ({ s0.fields with marker := 0xC0 } : Fields).marker = 0xC0 := rfl

theorem witness_NopDoesNothingAndLetsTheTickPass :
    (givenCmd (settling 0 1) 0x00 true false).nextInput.rst = false ∧
      WritesCmd (givenCmd (settling 0 1) 0x00 true false).nextInput 0x00 := ⟨rfl, rfl⟩

theorem witness_UnpackDecodesTheFrameAndChecksTheMarker :
    ¬ IsFieldOffset 0x07 ∧ ¬ IsFieldOffset 0x14 ∧ (0x14 : Offset) ≠ 0x1D := by
  unfold IsFieldOffset
  decide

theorem witness_CodecCommandsIgnoreModeAndSettle :
    Instr.nop ∈ [Instr.nop, .pack, .packPersist, .unpack, .reqRead, .reqReset, .clrErr] ∧
      Instr.clrErr ∈ [Instr.nop, .pack, .packPersist, .unpack, .reqRead, .reqReset, .clrErr] := by decide

theorem witness_UnpackAfterPackRestoresTheFields : IsFieldOffset 0x08 ∧ IsFieldOffset 0x13 := by
  unfold IsFieldOffset
  decide

theorem witness_CodecCarriesTheNodeAddress : Instr.pack ∈ [Instr.pack, .packPersist] := by decide

/-- The counter at its largest, at 1 and at 0. -/
theorem witness_SetModeEntersTheModeOrIsRefused :
    (settling 3 3).settleCnt ≠ 0 ∧ (settling 3 1).settleCnt ≠ 0 ∧ s0.settleCnt = 0 ∧ 1 ≤ s0.settleTicks := by decide

/-- A reset step, an accepted SET_MODE of the first and of the last code, and steps that are neither. -/
theorem witness_SettleCounterFollowsResetModeAndTick :
    (∃ t, step (givenReset s0) = .next t ∧ (givenReset s0).nextInput.rst = true) ∧
      (∃ t, step (givenCmd s0 0x60 true false) = .next t ∧ AcceptsMode (givenCmd s0 0x60 true false) 0) ∧
      (∃ t, step (givenCmd s0 0x63 true false) = .next t ∧ AcceptsMode (givenCmd s0 0x63 true false) 3) ∧
      (∃ t, step (givenCmd (settling 3 1) 0x60 true false) = .next t ∧
        (givenCmd (settling 3 1) 0x60 true false).nextInput.rst = false ∧
        ¬ ∃ m, AcceptsMode (givenCmd (settling 3 1) 0x60 true false) m) ∧
      ∃ t, step (givenTick s0 true) = .next t ∧ (givenTick s0 true).nextInput.rst = false ∧
        ¬ ∃ m, AcceptsMode (givenTick s0 true) m := by
  unfold AcceptsMode WritesSetMode WritesCmd
  exact ⟨⟨_, rfl, rfl⟩, ⟨_, rfl, by decide⟩, ⟨_, rfl, by decide⟩, ⟨_, rfl, rfl, by decide⟩, ⟨_, rfl, rfl, by decide⟩⟩

theorem witness_ModeLinesChangeOnlyByAcceptedSetModeOrReset :
    (∃ t, step (givenReset (settling 3 1)) = .next t ∧ (givenReset (settling 3 1)).nextInput.rst = true) ∧
      (∃ t, step (givenCmd (settling 1 0) 0x62 false false) = .next t ∧
        AcceptsMode (givenCmd (settling 1 0) 0x62 false false) 2) ∧
      ∃ t, step (givenCmd (settling 1 1) 0x62 false false) = .next t ∧
        (givenCmd (settling 1 1) 0x62 false false).nextInput.rst = false ∧
        ¬ ∃ m, AcceptsMode (givenCmd (settling 1 1) 0x62 false false) m := by
  unfold AcceptsMode WritesSetMode WritesCmd
  exact ⟨⟨_, rfl, rfl⟩, ⟨_, rfl, by decide⟩, ⟨_, rfl, rfl, by decide⟩⟩

/-- Two ticks after a SET_MODE PROGRAM, one of them with a refused SET_MODE: one short of SETTLE_TICKS = 3. -/
def twoTicks : List StepInput :=
  [{ rst := false, op := none, tick := true, aux := true }, commandStep (.setMode 0) true true]

theorem witness_SettleGateHoldsUntilTheLastTick :
    s0.settleCnt = 0 ∧ noReset twoTicks = true ∧ ticksIn twoTicks < s0.settleTicks ∧ noReset [] = true ∧
      ticksIn [] < s0.settleTicks ∧
      ({ s0 with inputs := commandStep (.setMode 3) true false :: (twoTicks ++ []) } : State).inputs =
        commandStep (.setMode 3) true false :: (twoTicks ++ []) := by decide

theorem witness_SettleGateOpensAtTheLastTick :
    s0.settleCnt = 0 ∧ noReset twoTicks = true ∧ ticksIn twoTicks + 1 = s0.settleTicks ∧
      (commandStep .gsend true true).rst = false ∧ (commandStep .gsend true true).tick = true ∧
      ({ s0 with inputs := commandStep (.setMode 3) true false :: (twoTicks ++ commandStep .gsend true true :: []) } :
          State).inputs =
        commandStep (.setMode 3) true false :: (twoTicks ++ commandStep .gsend true true :: []) := by decide

/-- No round, fewer rounds than the counter, and as many. -/
theorem witness_WaitSettledEndsAfterSettleCntTicks :
    0 ≤ s0.settleCnt ∧ 1 ≤ (settling 3 2).settleCnt ∧ 2 ≤ (settling 3 2).settleCnt ∧
      ({ settling 3 2 with inputs := waitSettled (fun _ => true) 2 ++ [] } : State).inputs =
        waitSettled (fun _ => true) 2 ++ [] := by decide

theorem witness_TxGrantPulsesOnlyInAGrantingGsend :
    (∃ t, step (givenCmd s0 0x80 false true) = .next t ∧ t.out.txGrant = true) ∧
      ∃ t, step (givenCmd (settling 3 0) 0x80 false true) = .next t ∧ t.out.txGrant = false :=
  ⟨⟨_, rfl, by decide⟩, ⟨_, rfl, by decide⟩⟩

theorem witness_AuxLevelReachesOnlyPollAndGsend :
    (givenReset s0).nextInput.rst = true ∧ ¬ WritesCmd (commandStep .pack false true) 0x70 ∧
      ¬ WritesCmd (commandStep .pack false true) 0x80 ∧ ¬ WritesCmd (writeStep 0x00 0x70 false true) 0x70 := by
  unfold WritesCmd
  decide

/-- S0 with every sticky flag 1. -/
def flagged : State := { s0 with flags := ⟨false, false, false, true, true, true⟩ }

theorem witness_StickyFlagsClearOnlyByClrErrOrReset :
    (∃ t, step (givenReset flagged) = .next t ∧ (givenReset flagged).nextInput.rst = true) ∧
      (∃ t, step (givenCmd flagged 0x90 false false) = .next t ∧
        WritesCmd (givenCmd flagged 0x90 false false).nextInput 0x90) ∧
      ∃ t, step (givenCmd flagged 0x30 false false) = .next t ∧
        (givenCmd flagged 0x30 false false).nextInput.rst = false ∧
        ¬ WritesCmd (givenCmd flagged 0x30 false false).nextInput 0x90 ∧
        ((givenCmd flagged 0x30 false false).busRead 0x1D).getLsbD 4 = true ∧
        ((givenCmd flagged 0x30 false false).busRead 0x1D).getLsbD 5 = true ∧
        ((givenCmd flagged 0x30 false false).busRead 0x1D).getLsbD 6 = true := by
  unfold WritesCmd
  exact ⟨⟨_, rfl, rfl⟩, ⟨_, rfl, rfl⟩, ⟨_, rfl, by decide⟩⟩

/-- Each cause raises its flag from 0: an UNPACK of a marker other than 0xC0, a SET_MODE while settling, a reserved byte. -/
theorem witness_ErrorFlagsRiseExactlyByTheirCauses :
    (∃ t, step (givenCmd s0 0x30 false false) = .next t ∧ (givenCmd s0 0x30 false false).nextInput.rst = false ∧
        ((givenCmd s0 0x30 false false).busRead 0x1D).getLsbD 4 = false ∧ (t.busRead 0x1D).getLsbD 4 = true) ∧
      (∃ t, step (givenCmd (settling 3 1) 0x61 true false) = .next t ∧
        ((givenCmd (settling 3 1) 0x61 true false).busRead 0x1D).getLsbD 5 = false ∧
        (t.busRead 0x1D).getLsbD 5 = true) ∧
      ∃ t, step (givenCmd s0 0xA0 false false) = .next t ∧
        ((givenCmd s0 0xA0 false false).busRead 0x1D).getLsbD 6 = false ∧ (t.busRead 0x1D).getLsbD 6 = true :=
  ⟨⟨_, rfl, by decide⟩, ⟨_, rfl, by decide⟩, ⟨_, rfl, by decide⟩⟩

theorem witness_ReservedByteStepKeepsTheTick :
    (givenCmd (settling 3 2) 0x64 true false).nextInput.rst = false ∧
      WritesCmd (givenCmd (settling 3 2) 0x64 true false).nextInput 0x64 ∧ ReservedDigits 0x64 := by
  unfold WritesCmd ReservedDigits
  decide

theorem witness_AStepRaisesAtMostOneError :
    ∃ t, step (givenCmd (settling 3 2) 0x64 true false) = .next t ∧
      ((givenCmd (settling 3 2) 0x64 true false).busRead 0x1D).getLsbD 6 = false ∧
      (t.busRead 0x1D).getLsbD 6 = true := ⟨_, rfl, by decide⟩

theorem witness_ValidClearGrantHaveOnlyTheirWriters :
    ∃ t, step (givenCmd s0 0x10 false true) = .next t ∧ (givenCmd s0 0x10 false true).nextInput.rst = false ∧
      ¬ WritesCmd (givenCmd s0 0x10 false true).nextInput 0x30 ∧
      ¬ WritesCmd (givenCmd s0 0x10 false true).nextInput 0x70 ∧
      ¬ WritesCmd (givenCmd s0 0x10 false true).nextInput 0x80 := by
  unfold WritesCmd
  exact ⟨_, rfl, by decide⟩

theorem witness_TxlenIsTheLengthOfTheRequestLastBuilt :
    (∃ t, step (givenReset s0) = .next t ∧ (givenReset s0).nextInput.rst = true) ∧
      (∃ t, step (givenCmd s0 0x20 false false) = .next t ∧ WritesCmd (givenCmd s0 0x20 false false).nextInput 0x20) ∧
      (∃ t, step (givenCmd s0 0x50 false false) = .next t ∧ WritesCmd (givenCmd s0 0x50 false false).nextInput 0x50) ∧
      ∃ t, step (givenCmd s0 0x30 false false) = .next t ∧ (givenCmd s0 0x30 false false).nextInput.rst = false ∧
        ∀ v ∈ ([0x10, 0x20, 0x40, 0x50] : List Byte), ¬ WritesCmd (givenCmd s0 0x30 false false).nextInput v := by
  unfold WritesCmd
  exact ⟨⟨_, rfl, rfl⟩, ⟨_, rfl, rfl⟩, ⟨_, rfl, rfl⟩, ⟨_, rfl, by decide⟩⟩

/-- For FRM[5] a REQ_READ step meets them, for FRM[0] an UNPACK step. -/
theorem witness_FrameBytesHaveOnlyTheirWriters :
    (∃ t, step (givenCmd s0 0x40 false false) = .next t ∧ (givenCmd s0 0x40 false false).nextInput.rst = false ∧
        IsFrmOffset 0x05 ∧ (∀ v, (givenCmd s0 0x40 false false).nextInput.op ≠ some (.write 0x05 v)) ∧
        ¬ WritesCmd (givenCmd s0 0x40 false false).nextInput 0x10 ∧
        ¬ WritesCmd (givenCmd s0 0x40 false false).nextInput 0x20 ∧ ¬ (0x05 : Offset).toNat ≤ 2) ∧
      ∃ t, step (givenCmd s0 0x30 false false) = .next t ∧ (givenCmd s0 0x30 false false).nextInput.rst = false ∧
        IsFrmOffset 0x00 ∧ (∀ v, (givenCmd s0 0x30 false false).nextInput.op ≠ some (.write 0x00 v)) ∧
        ¬ WritesCmd (givenCmd s0 0x30 false false).nextInput 0x10 ∧
        ¬ WritesCmd (givenCmd s0 0x30 false false).nextInput 0x20 ∧
        ¬ WritesCmd (givenCmd s0 0x30 false false).nextInput 0x40 ∧
        ¬ WritesCmd (givenCmd s0 0x30 false false).nextInput 0x50 := by
  unfold WritesCmd IsFrmOffset
  exact ⟨⟨_, rfl, by decide⟩, ⟨_, rfl, by decide⟩⟩

theorem witness_FieldRegistersHaveOnlyTheirWriters :
    ∃ t, step (given s0 (.write 0x12 0xFF) true false) = .next t ∧
      (given s0 (.write 0x12 0xFF) true false).nextInput.rst = false ∧ IsFieldOffset 0x08 ∧ IsFieldOffset 0x13 ∧
      (∀ v, (given s0 (.write 0x12 0xFF) true false).nextInput.op ≠ some (.write 0x08 v)) ∧
      (∀ v, (given s0 (.write 0x12 0xFF) true false).nextInput.op ≠ some (.write 0x13 v)) ∧
      ¬ WritesCmd (given s0 (.write 0x12 0xFF) true false).nextInput 0x30 := by
  unfold WritesCmd IsFieldOffset
  exact ⟨_, rfl, by decide⟩

theorem witness_StepOrderIsResetThenOperationThenTick :
    (givenReset s0).nextInput.rst = true ∧ (givenCmd s0 0x63 true false).nextInput.rst = false ∧
      AcceptsMode (givenCmd s0 0x63 true false) 3 ∧ ¬ ∃ m, AcceptsMode (givenTick s0 true) m := by
  unfold AcceptsMode WritesSetMode WritesCmd
  decide

theorem witness_StepRunsTheDecodedCommand :
    (givenCmd s0 0x63 true false).nextInput.rst = false ∧ WritesCmd (givenCmd s0 0x63 true false).nextInput 0x63 ∧
      decode 0x63 = .command (.setMode 3) := by
  unfold WritesCmd
  decide

theorem witness_ResetStepPutsTheResetValues :
    (commandStep .pack true true).rst = false ∧ (givenReset s0).nextInput.rst = true ∧ 1 ≤ s0.settleTicks := by decide

theorem witness_EveryStepKeepsTheStateLegal :
    s0.Legal ∧ (settling 3 3).Legal ∧ ∃ t, step (givenCmd s0 0x80 false true) = .next t ∧ t.out.txGrant = true :=
  ⟨by decide, by decide, _, rfl, by decide⟩

theorem witness_AfterResetTheGateIsShut :
    ({ s0 with inputs := { rst := true, op := none, tick := true, aux := true } :: (twoTicks ++ []) } : State).inputs =
        { rst := true, op := none, tick := true, aux := true } :: (twoTicks ++ []) ∧
      noReset twoTicks = true ∧ ticksIn twoTicks < s0.settleTicks ∧ noReset [] = true ∧ ticksIn [] < s0.settleTicks := by
  decide

theorem witness_LoadedResponseIsDecodedByUnpack :
    ({ s0 with
        inputs := responseLoad s0.frm (fun _ => true) (fun _ => false) ++ commandStep .unpack true true :: [] } :
        State).inputs =
      responseLoad s0.frm (fun _ => true) (fun _ => false) ++ commandStep .unpack true true :: [] := by decide

end Sys2Proof.Tests
end

section
/-! SUPPORT. The legal states are kept by each part of a step: what stands before the host operation, the operation itself,
the tick, and the end of the step. A step begins with no grant pulse, so an operation that does not pulse has only the
ranges of SETTLE_TICKS, SETTLE_CNT and TXLEN to keep. -/

namespace Sys2Proof.Machine

/-- Without a grant pulse, a state is legal when its counters and TXLEN are in range. -/
theorem legal_of_noPulse {s : State} (hticks : 1 ≤ s.settleTicks) (hcnt : s.settleCnt ≤ s.settleTicks)
    (htxlen : s.txlen = 0 ∨ s.txlen = 3 ∨ s.txlen = 6) (hpulse : s.out.txGrant = false) : s.Legal :=
  ⟨hticks, hcnt, htxlen, fun h => absurd (hpulse.symm.trans h) Bool.false_ne_true⟩

/-- The grant condition as R189 says it. -/
theorem grantOk_iff (a : Bool) (cnt : Nat) (m : ModeCode) :
    grantOk a cnt m = true ↔ a = true ∧ cnt = 0 ∧ m ≠ programMode := by
  simp [grantOk, and_assoc]

theorem beginStep_legal {s : State} (hs : s.Legal) : s.beginStep.Legal := by
  obtain ⟨hticks, hcnt, htxlen, -⟩ := hs
  exact legal_of_noPulse hticks hcnt htxlen rfl

/-- A reset starts the counter at its upper bound, with no request and no pulse. -/
theorem takeReset_legal {s : State} (hs : s.Legal) : s.takeReset.Legal := by
  obtain ⟨hticks, -⟩ := hs
  exact legal_of_noPulse hticks le_rfl (.inl rfl) rfl

theorem endStep_legal {s : State} (hs : s.Legal) : s.endStep.Legal := hs

/-- The tick can only lower the counter, and a settled block stays settled. -/
theorem applyTick_legal {s : State} (tick accepted : Bool) (hs : s.Legal) : (s.applyTick tick accepted).Legal := by
  obtain ⟨hticks, hcnt, htxlen, hgrant⟩ := hs
  rw [applyTick_eq]
  split
  · refine ⟨hticks, (Nat.sub_le _ _).trans hcnt, htxlen, fun hpulse => ?_⟩
    obtain ⟨hg, hc, hzero, hmode⟩ := hgrant hpulse
    exact ⟨hg, hc, by simp [hzero], hmode⟩
  · exact ⟨hticks, hcnt, htxlen, hgrant⟩

/-- GSEND pulses only on the verdict of the grant condition, and stores the sample and the verdict in CLEAR and GRANT. -/
theorem gatedSend_legal {s : State} (hs : s.Legal) : s.gatedSend.Legal := by
  obtain ⟨hticks, hcnt, htxlen, -⟩ := hs
  refine ⟨hticks, hcnt, htxlen, fun hverdict => ?_⟩
  obtain ⟨haux, hzero, hmode⟩ := (grantOk_iff s.sampleAux s.settleCnt s.mode).1 hverdict
  exact ⟨hverdict, haux, hzero, hmode⟩

section NoPulseYet

variable {s : State} (hs : s.Legal) (hpulse : s.out.txGrant = false)
include hs hpulse

/-- New data registers or flags keep the state legal: with no pulse given, no flag is bound to anything. -/
theorem setData_legal (f : Frame) (r : Fields) (b : StatusFlags) :
    (((s.setFrm f).setFields r).setFlags b).Legal := by
  obtain ⟨hticks, hcnt, htxlen, -⟩ := hs
  exact legal_of_noPulse hticks hcnt htxlen hpulse

theorem loadRequest_legal (f : Frame) {n : BitVec 3} (hn : n = 0 ∨ n = 3 ∨ n = 6) : (s.loadRequest f n).Legal := by
  obtain ⟨hticks, hcnt, -⟩ := hs
  exact legal_of_noPulse hticks hcnt hn hpulse

/-- SET_MODE keeps the counter while settling, and otherwise starts it at its upper bound. -/
theorem requestMode_legal (m : ModeCode) : (s.requestMode m).Legal := by
  cases hset : s.settling with
  | true =>
    rw [requestMode_settling m hset]
    exact setData_legal hs hpulse s.frm s.fields _
  | false =>
    obtain ⟨hticks, -, htxlen, -⟩ := hs
    rw [requestMode_settled m hset]
    exact legal_of_noPulse hticks le_rfl htxlen hpulse

theorem exec_legal {i : Instr} {t : State} (h : exec i s = .next t) : t.Legal := by
  cases i <;> injection h with h <;> subst h
  case nop => exact hs
  case pack | packPersist => exact loadRequest_legal hs hpulse _ (.inr (.inr rfl))
  case reqRead | reqReset => exact loadRequest_legal hs hpulse _ (.inr (.inl rfl))
  case unpack => exact setData_legal hs hpulse s.frm _ _
  case poll | clrErr => exact setData_legal hs hpulse s.frm s.fields _
  case setMode m => exact requestMode_legal hs hpulse m
  case gsend => exact gatedSend_legal hs

theorem perform_legal {op : Option HostOp} {t : State} (h : perform op s = .next t) : t.Legal := by
  rcases perform_cases op s with ⟨-, hq⟩ | ⟨off, -, hq⟩ | ⟨off, v, -, -, hq⟩ | ⟨v, i, -, -, hq⟩ | ⟨v, why, -, -, hq⟩
  case inr.inr.inr.inl => exact exec_legal hs hpulse (hq.symm.trans h)
  all_goals injection hq.symm.trans h with ht; subst ht
  · exact hs
  · exact hs
  · obtain ⟨f, r, hw⟩ := writeReg_eq s (regAt off) v
    rw [hw]
    exact setData_legal hs hpulse f r s.flags
  · exact setData_legal hs hpulse s.frm s.fields _

end NoPulseYet

end Sys2Proof.Machine

namespace Sys2Proof.Claims

open Sys2Proof.Machine

/-- Settles O51: a reset step ends in the legal reset values, and any other step is a host operation on a state with no
pulse, then a tick. -/
theorem everyStepKeepsTheStateLegal : Obligations.EveryStepKeepsTheStateLegal := by
  intro s t hs hstep
  rcases step_cases hstep with ⟨-, rfl⟩ | ⟨-, u, hu, rfl⟩
  · exact endStep_legal (takeReset_legal hs)
  · have hlegal : u.Legal := perform_legal (beginStep_legal hs) rfl hu
    exact endStep_legal (applyTick_legal _ _ hlegal)

end Sys2Proof.Claims
end

section
/-! SUPPORT. The stored registers: what the window shows of each, what a host write leaves alone, and, said once in
`RegisterWriter`, by which writer a step without reset can change them. -/

namespace Sys2Proof.Machine

open Sys2Proof.Claims

/-! ### What the window shows -/

theorem busRead_txlen (s : State) : s.busRead 0x06 = s.txlen.setWidth 8 := rfl

theorem busRead_status (s : State) : s.busRead 0x1D = statusByteOf s.settling s.flags := rfl

theorem busRead_status_valid (s : State) : (s.busRead 0x1D).getLsbD 1 = s.flags.valid := by
  obtain ⟨-, hvalid, -⟩ := statusByteOf_getLsbD s.settling s.flags
  exact hvalid

theorem busRead_status_clear (s : State) : (s.busRead 0x1D).getLsbD 2 = s.flags.clear := by
  obtain ⟨-, -, hclear, -⟩ := statusByteOf_getLsbD s.settling s.flags
  exact hclear

theorem busRead_status_grant (s : State) : (s.busRead 0x1D).getLsbD 3 = s.flags.grant := by
  obtain ⟨-, -, -, hgrant, -⟩ := statusByteOf_getLsbD s.settling s.flags
  exact hgrant

theorem busRead_fieldOffset (s : State) (f : FieldReg) : s.busRead (fieldOffset f) = s.fields.read f := by
  cases f <;> rfl

/-- A value of at most 8 bits keeps its bound when it is read as a byte. -/
theorem setWidth_byte_lt {w : Nat} (hw : w ≤ 8) (x : BitVec w) : (x.setWidth 8).toNat < 2 ^ w := by
  rw [BitVec.toNat_setWidth_of_le hw]
  exact x.isLt

/-- A register as wide as a byte reads as it is, and a narrower one reads extended. -/
theorem Fields.read_lt (r : Fields) (f : FieldReg) : (r.read f).toNat < 2 ^ fieldWidth f := by
  cases f
  case marker | addh | addl | chan => exact BitVec.isLt _
  all_goals exact setWidth_byte_lt (by decide) _

/-! ### The offsets of the data registers -/

theorem regAt_frmOffset {off : Offset} (h : IsFrmOffset off) :
    regAt off = .frm0 ∨ regAt off = .frm1 ∨ regAt off = .frm2 ∨ regAt off = .frm3 ∨ regAt off = .frm4 ∨
      regAt off = .frm5 := by
  unfold IsFrmOffset at h
  unfold regAt
  generalize off.toNat = n at h
  interval_cases n <;> simp

theorem regAt_frmOffset_of_gt {off : Offset} (h : IsFrmOffset off) (hlow : 2 < off.toNat) :
    regAt off = .frm3 ∨ regAt off = .frm4 ∨ regAt off = .frm5 := by
  unfold IsFrmOffset at h
  unfold regAt
  generalize off.toNat = n at h hlow
  interval_cases n <;> simp

theorem regAt_fieldOffset {off : Offset} (h : IsFieldOffset off) : ∃ f, regAt off = .field f := by
  obtain ⟨hlo, hhi⟩ := h
  unfold regAt
  generalize off.toNat = n at hlo hhi
  interval_cases n <;> exact ⟨_, rfl⟩

theorem offsetOf_regAt (off : Offset) (h : regAt off ≠ .reserved) : offsetOf (regAt off) = some off := by
  revert off
  decide

/-- Two offsets of one register are one offset, unless they hold none (R85). -/
theorem regAt_injective {off off' : Offset} (h : regAt off = regAt off') (hr : regAt off ≠ .reserved) : off = off' := by
  have ho := offsetOf_regAt off hr
  rw [h, offsetOf_regAt off' (h ▸ hr)] at ho
  exact (Option.some.inj ho).symm

theorem busRead_frm_congr {s t : State} {off : Offset} (h : IsFrmOffset off) (e : t.frm = s.frm) :
    t.busRead off = s.busRead off := by
  rcases regAt_frmOffset h with hreg | hreg | hreg | hreg | hreg | hreg <;> simp [State.busRead, State.readReg, hreg, e]

theorem busRead_field_congr {s t : State} {off : Offset} (h : IsFieldOffset off)
    (e : t.fields = s.fields) : t.busRead off = s.busRead off := by
  obtain ⟨f, hreg⟩ := regAt_fieldOffset h
  simp [State.busRead, State.readReg, hreg, e]

/-- A 3-byte request leaves FRM[3..5] alone (R133, R134). -/
theorem busRead_shortRequest {s t : State} {off : Offset} {b : Byte} (h : IsFrmOffset off) (hlow : 2 < off.toNat)
    (e : t.frm = shortRequest b s.frm) : t.busRead off = s.busRead off := by
  rcases regAt_frmOffset_of_gt h hlow with hreg | hreg | hreg <;> simp [State.busRead, State.readReg, shortRequest, hreg, e]

/-! ### What a host write leaves alone -/

@[simp] theorem writeReg_txlen (s : State) (r : WinReg) (v : Byte) : (s.writeReg r v).txlen = s.txlen := by
  obtain ⟨f, g, h⟩ := writeReg_eq s r v
  simp [h]

@[simp] theorem writeReg_flags (s : State) (r : WinReg) (v : Byte) : (s.writeReg r v).flags = s.flags := by
  obtain ⟨f, g, h⟩ := writeReg_eq s r v
  simp [h]

theorem Fields.read_write_of_ne (r : Fields) {f g : FieldReg} (v : Byte) (h : g ≠ f) :
    (r.write f v).read g = r.read g := by
  cases f <;> cases g <;> try rfl
  all_goals exact absurd rfl h

theorem readReg_writeReg_of_ne (s : State) {r r' : WinReg} (v : Byte) (h : r' ≠ r) :
    (s.writeReg r v).readReg r' = s.readReg r' := by
  cases r with
  | txlen | mode | status | cmd | reserved => rfl
  | field f =>
    cases r' with
    | field g => exact s.fields.read_write_of_ne v (fun hg => h (congrArg _ hg))
    | _ => rfl
  | frm0 | frm1 | frm2 | frm3 | frm4 | frm5 =>
    cases r' <;> try rfl
    all_goals exact absurd rfl h

/-- A host write shows at its own offset only. -/
theorem busRead_writeReg_of_ne (s : State) {off off' : Offset} (v : Byte) (h : off' ≠ off) :
    (s.writeReg (regAt off) v).busRead off' = s.busRead off' := by
  by_cases hreg : regAt off' = regAt off
  · have hres : regAt off' = .reserved := by_contra fun hr => h (regAt_injective hreg hr)
    simp [State.busRead, hres, State.readReg]
  · exact readReg_writeReg_of_ne s v hreg

/-! ### Who writes the stored registers -/

/-- `t` holds the data registers, TXLEN and the flags that are no error flags as `u` does. -/
structure SameStored (u t : State) : Prop where
  frm : t.frm = u.frm
  fields : t.fields = u.fields
  txlen : t.txlen = u.txlen
  valid : t.flags.valid = u.flags.valid
  clear : t.flags.clear = u.flags.clear
  grant : t.flags.grant = u.flags.grant

/-- The tick and the end of a step touch none of the stored registers. -/
theorem sameStored_endOfStep (u : State) (tick accepted : Bool) : SameStored u (u.applyTick tick accepted).endStep := by
  rw [applyTick_eq]
  exact ⟨rfl, rfl, rfl, rfl, rfl, rfl⟩

/-- The clearing of the last outputs makes no difference to what a host write stores. -/
theorem sameStored_write (s : State) (r : WinReg) (v : Byte) :
    SameStored (s.writeReg r v) (s.afterTick (s.beginStep.writeReg r v)) := by
  cases r <;> exact ⟨rfl, rfl, rfl, rfl, rfl, rfl⟩

/-- The byte of a command is the only one that decodes to it. -/
theorem encode_of_decode {v : Byte} {i : Instr} (h : decode v = .command i) : encode i = v := by
  have encode_command : ∀ v : Byte, ∀ i ∈ (decode v).command?, encode i = v := by decide
  exact encode_command v i (by simp [h, Decoded.command?])

/-- By whom the stored registers can change in a step without reset, with what the writer stores. SET_MODE, CLR_ERR and the
errors are among `kept`. -/
inductive RegisterWriter (s t : State) : Prop where
  | kept (e : SameStored s t)
  | host (off : Offset) (v : Byte) (ho : s.nextInput.op = some (.write off v))
      (e : SameStored (s.writeReg (regAt off) v) t)
  | fullRequest (f : Frame) (hw : WritesCmd s.nextInput 0x10 ∨ WritesCmd s.nextInput 0x20)
      (e : SameStored (s.loadRequest f 6) t)
  | shortRequest (b : Byte) (hw : WritesCmd s.nextInput 0x40 ∨ WritesCmd s.nextInput 0x50)
      (e : SameStored (s.loadRequest (shortRequest b s.frm) 3) t)
  | unpack (hw : WritesCmd s.nextInput 0x30) (e : SameStored s.unpackFrame t)
  | poll (hw : WritesCmd s.nextInput 0x70) (e : SameStored s.poll t)
  | gsend (hw : WritesCmd s.nextInput 0x80) (e : SameStored s.gatedSend t)

/-- The writers of the commands other than SET_MODE. -/
theorem registerWriter_of_exec {s u : State} {i : Instr} (hw : WritesCmd s.nextInput (encode i))
    (hi : isSetMode i = false) (hu : exec i s.beginStep = .next u) : RegisterWriter s (s.afterTick u) := by
  cases i <;> injection hu with hu <;> subst hu
  case setMode m => cases hi
  case nop | clrErr => exact .kept ⟨rfl, rfl, rfl, rfl, rfl, rfl⟩
  case pack => exact .fullRequest _ (.inl hw) ⟨rfl, rfl, rfl, rfl, rfl, rfl⟩
  case packPersist => exact .fullRequest _ (.inr hw) ⟨rfl, rfl, rfl, rfl, rfl, rfl⟩
  case reqRead => exact .shortRequest _ (.inl hw) ⟨rfl, rfl, rfl, rfl, rfl, rfl⟩
  case reqReset => exact .shortRequest _ (.inr hw) ⟨rfl, rfl, rfl, rfl, rfl, rfl⟩
  case unpack => exact .unpack hw ⟨rfl, rfl, rfl, rfl, rfl, rfl⟩
  case poll => exact .poll hw ⟨rfl, rfl, rfl, rfl, rfl, rfl⟩
  case gsend => exact .gsend hw ⟨rfl, rfl, rfl, rfl, rfl, rfl⟩

theorem registerWriter_of_step {s t : State} (h : step s = .next t) (hr : s.nextInput.rst = false) :
    RegisterWriter s t := by
  cases stepCase_of_step h with
  | reset hrst => rw [hr] at hrst; cases hrst
  | write off v _ _ ho e => exact .host off v ho (e ▸ sameStored_write s _ v)
  | command v i u _ ho hd hi hu e =>
    have hw : WritesCmd s.nextInput (encode i) := by rw [encode_of_decode hd]; exact ho
    exact e ▸ registerWriter_of_exec hw hi hu
  | idle _ _ e | read _ _ _ e | reservedByte _ _ _ _ _ e | modeAccepted _ _ _ _ _ _ e | modeRefused _ _ _ _ _ _ e =>
    exact .kept (e ▸ ⟨rfl, rfl, rfl, rfl, rfl, rfl⟩)

/-- The byte of a command, written to CMD, runs it, and what it stores is what the step leaves. -/
theorem step_runs_command {s t : State} {v : Byte} {i : Instr} (h : step s = .next t) (hr : s.nextInput.rst = false)
    (hw : WritesCmd s.nextInput v) (hd : decode v = .command i) :
    ∃ u, exec i s.beginStep = .next u ∧ SameStored u t := by
  rcases step_cases h with ⟨hrst, -⟩ | ⟨-, u, hu, rfl⟩
  · rw [hr] at hrst; cases hrst
  · refine ⟨u, ?_, sameStored_endOfStep u _ _⟩
    rw [hw] at hu
    simpa [perform, busWrite, executeByte, cmdOffset, hd] using hu

/-- A command that builds a request leaves its length in TXLEN. -/
theorem step_txlen_of_request {s t : State} {v : Byte} {i : Instr} {f : Frame} {n : BitVec 3} (h : step s = .next t)
    (hr : s.nextInput.rst = false) (hw : WritesCmd s.nextInput v) (hd : decode v = .command i)
    (hx : exec i s.beginStep = .next (s.beginStep.loadRequest f n)) : t.txlen = n := by
  obtain ⟨u, hu, e⟩ := step_runs_command h hr hw hd
  injection hu.symm.trans hx with hu
  rw [e.txlen, hu]
  rfl

/-! ### The state right after reset -/

/-- SETTLE_TICKS of the reset state is at least 1, so it starts settling (R7, R51). -/
theorem reset_settleTicks_pos : 1 ≤ State.reset.settleTicks := Nat.succ_pos Config.extraTicks

theorem reset_settling : State.reset.settling = true :=
  (settling_iff State.reset).2 (Nat.succ_ne_zero Config.extraTicks)

end Sys2Proof.Machine

namespace Sys2Proof.Claims

open Sys2Proof.Machine

/-- Settles O9: the table of widths register by register, and each register's own bound. -/
theorem fieldRegistersReadWithinTheirWidth : Obligations.FieldRegistersReadWithinTheirWidth := by
  refine ⟨fun f => by cases f <;> rfl, fun s f => ?_⟩
  rw [busRead_fieldOffset]
  exact s.fields.read_lt f

/-- Settles O11: the STATUS byte bit by bit, with SETTLING the test of the counter. -/
theorem statusByteHasTheFlagsInPlace : Obligations.StatusByteHasTheFlagsInPlace := by
  intro s
  obtain ⟨hsettling, hflags⟩ := statusByteOf_getLsbD s.settling s.flags
  rw [busRead_status, hsettling]
  exact ⟨settling_iff s, hflags⟩

/-- Settles O41: of the writers, only UNPACK touches VALID, only POLL and GSEND touch CLEAR, only GSEND touches GRANT. -/
theorem validClearGrantHaveOnlyTheirWriters : Obligations.ValidClearGrantHaveOnlyTheirWriters := by
  intro s t h hr
  simp only [busRead_status_valid, busRead_status_clear, busRead_status_grant]
  cases registerWriter_of_step h hr with
  | kept e | fullRequest _ _ e | shortRequest _ _ e => exact ⟨fun _ => e.valid, fun _ _ => e.clear, fun _ => e.grant⟩
  | host off v _ e =>
    obtain ⟨-, -, -, hvalid, hclear, hgrant⟩ := e
    rw [writeReg_flags] at hvalid hclear hgrant
    exact ⟨fun _ => hvalid, fun _ _ => hclear, fun _ => hgrant⟩
  | unpack hw e => exact ⟨fun hn => absurd hw hn, fun _ _ => e.clear, fun _ => e.grant⟩
  | poll hw e => exact ⟨fun _ => e.valid, fun hn => absurd hw hn, fun _ => e.grant⟩
  | gsend hw e => exact ⟨fun _ => e.valid, fun _ hn => absurd hw hn, fun hn => absurd hw hn⟩

/-- Settles O42: each request command leaves its length, and no other writer touches TXLEN. -/
theorem txlenIsTheLengthOfTheRequestLastBuilt : Obligations.TxlenIsTheLengthOfTheRequestLastBuilt := by
  intro s t h
  simp only [busRead_txlen]
  refine ⟨fun hrst => ?_, fun hr => ⟨?_, ?_, fun hn => ?_⟩⟩
  · rcases step_cases h with ⟨-, rfl⟩ | ⟨hr, -⟩
    · rfl
    · rw [hr] at hrst; cases hrst
  · rintro (hw | hw)
    · rw [step_txlen_of_request h hr hw (i := .pack) (by decide) rfl]; rfl
    · rw [step_txlen_of_request h hr hw (i := .packPersist) (by decide) rfl]; rfl
  · rintro (hw | hw)
    · rw [step_txlen_of_request h hr hw (i := .reqRead) (by decide) rfl]; rfl
    · rw [step_txlen_of_request h hr hw (i := .reqReset) (by decide) rfl]; rfl
  · congr 1
    cases registerWriter_of_step h hr with
    | kept e | unpack _ e | poll _ e | gsend _ e => exact e.txlen
    | host off v _ e => exact e.txlen.trans (writeReg_txlen s _ v)
    | fullRequest _ hw _ | shortRequest _ hw _ => rcases hw with hw | hw <;> exact absurd hw (hn _ (by simp))

/-- Settles O43: a host write shows at its own offset only, a short request leaves FRM[3..5] alone, and UNPACK, POLL and
GSEND leave FRM alone. -/
theorem frameBytesHaveOnlyTheirWriters : Obligations.FrameBytesHaveOnlyTheirWriters := by
  intro s t h hr off hoff hwrite hpack hpersist hshort
  cases registerWriter_of_step h hr with
  | kept e | unpack _ e | poll _ e | gsend _ e => exact busRead_frm_congr hoff e.frm
  | host off' v ho e =>
    have hne : off ≠ off' := fun heq => hwrite v (heq ▸ ho)
    exact (busRead_frm_congr hoff e.frm).trans (busRead_writeReg_of_ne s v hne)
  | fullRequest _ hw _ => exact (hw.elim hpack hpersist).elim
  | shortRequest b hw e =>
    have hlow : 2 < off.toNat := not_le.1 fun hle => hw.elim (hshort hle).1 (hshort hle).2
    exact busRead_shortRequest hoff hlow e.frm

/-- Settles O44: a host write shows at its own offset only, and every writer but UNPACK leaves the fields alone. -/
theorem fieldRegistersHaveOnlyTheirWriters : Obligations.FieldRegistersHaveOnlyTheirWriters := by
  intro s t h hr off hoff hwrite hunpack
  cases registerWriter_of_step h hr with
  | kept e | fullRequest _ _ e | shortRequest _ _ e | poll _ e | gsend _ e => exact busRead_field_congr hoff e.fields
  | host off' v ho e =>
    have hne : off ≠ off' := fun heq => hwrite v (heq ▸ ho)
    exact (busRead_field_congr hoff e.fields).trans (busRead_writeReg_of_ne s v hne)
  | unpack hw _ => exact absurd hw hunpack

/-- Settles O49: the reset values as they stand, with SETTLING 1 because SETTLE_TICKS is at least 1. -/
theorem resetStateIsSettlingInNormal : Obligations.ResetStateIsSettlingInNormal := by
  have hstatus : State.reset.busRead 0x1D = 0x01 := by
    rw [busRead_status, reset_settling]
    rfl
  exact ⟨rfl, rfl, hstatus, rfl, reset_settleTicks_pos, rfl, rfl, rfl⟩

/-- Settles O50: the counter starts at its upper bound, with no request and no pulse. -/
theorem resetStateIsLegal : Obligations.ResetStateIsLegal :=
  legal_of_noPulse reset_settleTicks_pos le_rfl (.inl rfl) rfl

end Sys2Proof.Claims
end

section
/-! SUPPORT. The host's side of the register window (20_memory.md): what a write to a register answers and stores, what
a read returns, and what a run of register writes leaves. -/

namespace Sys2Proof.Machine

open Sys2Proof.Claims

/-! ### A host write to a register -/

theorem ne_cmdOffset_of_regAt {off : Offset} (h : regAt off ≠ .cmd) : off ≠ cmdOffset := fun hoff => h (hoff ▸ rfl)

theorem busWrite_of_ne {off : Offset} (v : Byte) (s : State) (h : off ≠ cmdOffset) :
    busWrite off v s = .next (s.writeReg (regAt off) v) := if_neg h

theorem regAt_reservedOffset {off : Offset} (h : IsReservedOffset off) : regAt off = .reserved := by
  revert off
  unfold IsReservedOffset
  decide

/-- A data register is one of the frame bytes or one of the field registers. -/
def IsDataReg : WinReg → Prop
  | .frm0 | .frm1 | .frm2 | .frm3 | .frm4 | .frm5 | .field _ => True
  | .txlen | .mode | .status | .cmd | .reserved => False

theorem isDataReg_regAt {off : Offset} (h : IsFrmOffset off ∨ IsFieldOffset off) : IsDataReg (regAt off) := by
  rcases h with h | h
  · rcases regAt_frmOffset h with hreg | hreg | hreg | hreg | hreg | hreg <;> rw [hreg] <;> trivial
  · obtain ⟨f, hreg⟩ := regAt_fieldOffset h
    rw [hreg]
    trivial

/-- Narrowing a byte to `w` bits keeps its low `w` bits. -/
theorem setWidth_setWidth_byte_toNat {w : Nat} (hw : w ≤ 8) (v : Byte) :
    ((v.setWidth w).setWidth 8).toNat = v.toNat % 2 ^ w := by
  rw [BitVec.toNat_setWidth_of_le hw, BitVec.toNat_setWidth]

theorem byte_toNat_mod (v : Byte) : v.toNat % 2 ^ 8 = v.toNat := Nat.mod_eq_of_lt v.isLt

/-- A field register reads back the low `W(F)` bits of the byte written to it (R34). -/
theorem Fields.read_write_same (r : Fields) (f : FieldReg) (v : Byte) :
    ((r.write f v).read f).toNat = v.toNat % 2 ^ fieldWidth f := by
  cases f
  case marker | addh | addl | chan => exact (byte_toNat_mod v).symm
  all_goals exact setWidth_setWidth_byte_toNat (by decide) v

/-- A data register reads back the byte written to it under its mask (R63). -/
theorem busRead_writeReg_same (s : State) {off : Offset} (v : Byte) (h : IsDataReg (regAt off)) :
    ((s.writeReg (regAt off) v).busRead off).toNat = v.toNat % 2 ^ dataWidth off := by
  unfold State.busRead dataWidth
  cases hreg : regAt off <;> rw [hreg] at h
  case field f => exact s.fields.read_write_same f v
  case frm0 | frm1 | frm2 | frm3 | frm4 | frm5 => exact (byte_toNat_mod v).symm
  all_goals exact h.elim

theorem sameHidden_writeReg (s : State) (r : WinReg) (v : Byte) : SameHidden s (s.writeReg r v) := by
  obtain ⟨f, g, hw⟩ := writeReg_eq s r v
  rw [hw]
  exact ⟨rfl, rfl, rfl, rfl⟩

@[simp] theorem writeReg_out (s : State) (r : WinReg) (v : Byte) : (s.writeReg r v).out = s.out := by
  obtain ⟨f, g, hw⟩ := writeReg_eq s r v
  simp [hw]

@[simp] theorem writeReg_settleCnt (s : State) (r : WinReg) (v : Byte) : (s.writeReg r v).settleCnt = s.settleCnt := by
  obtain ⟨f, g, hw⟩ := writeReg_eq s r v
  simp [hw]

@[simp] theorem writeReg_inputs (s : State) (r : WinReg) (v : Byte) : (s.writeReg r v).inputs = s.inputs := by
  obtain ⟨f, g, hw⟩ := writeReg_eq s r v
  simp [hw]

theorem Fields.write_write_same (r : Fields) (f : FieldReg) (v : Byte) : (r.write f v).write f v = r.write f v := by
  cases f <;> rfl

theorem writeReg_writeReg_same (s : State) (r : WinReg) (v : Byte) :
    (s.writeReg r v).writeReg r v = s.writeReg r v := by
  cases r with
  | field f => exact congrArg s.setFields (s.fields.write_write_same f v)
  | _ => rfl

/-! ### The platform address of an offset -/

theorem windowOffset_eq_none_iff (a : Nat) :
    windowOffset a = none ↔ a < Config.base ∨ Config.base + 32 ≤ a := by
  simp only [windowOffset, ite_eq_right_iff, reduceCtorEq, imp_false]
  omega

theorem windowOffset_windowAddress (off : Offset) : windowOffset (windowAddress off) = some off := by
  have hlt : off.toNat < 32 := off.isLt
  simp [windowOffset, windowAddress, hlt]

theorem eq_windowAddress_of_windowOffset {a : Nat} {off : Offset} (h : windowOffset a = some off) :
    a = windowAddress off := by
  unfold windowOffset at h
  split at h
  case isTrue hin =>
    injection h with h
    rw [windowAddress, ← h, BitVec.toNat_ofNat]
    omega
  case isFalse => cases h

/-! ### A host read -/

/-- The STATUS byte as the sum of its bits' weights (R37). -/
theorem statusByteOf_eq_sum (x : Bool) (f : StatusFlags) :
    statusByteOf x f =
      BitVec.ofNat 8 (x.toNat + 2 * f.valid.toNat + 4 * f.clear.toNat + 8 * f.grant.toNat + 16 * f.decerr.toNat +
        32 * f.busyerr.toNat + 64 * f.cmderr.toNat) := by
  obtain ⟨a, b, c, d, e, g⟩ := f
  revert x a b c d e g
  decide

theorem settling_toNat (s : State) : s.settling.toNat = if s.settleCnt = 0 then 0 else 1 := by
  cases hs : s.settleCnt <;> simp [State.settling, hs]

/-- The window read is the register map of R85. -/
theorem busRead_eq_readTable (s : State) (off : Offset) : s.busRead off = readTable s off := by
  have hstatus := statusByteOf_eq_sum s.settling s.flags
  rw [settling_toNat] at hstatus
  have hlt : off.toNat < 32 := off.isLt
  unfold State.busRead regAt readTable
  generalize off.toNat = n at hlt
  interval_cases n <;> simp [State.readReg, Fields.read, State.statusByte, hstatus]

/-- A step without reset whose operation accepts no mode and leaves SETTLE_CNT alone: the operation, then the tick. -/
theorem step_of_perform {s u : State} (hr : s.nextInput.rst = false)
    (hp : perform s.nextInput.op s.beginStep = .next u) (ha : s.acceptsMode s.nextInput.op = false)
    (hc : u.settleCnt = s.settleCnt) : step s = .next (s.afterTick u) := by
  rw [← applyTick_afterTick hc]
  simp [step, stepOn, hostStep, hr, hp, ha, afterNext]

theorem step_read {s : State} {off : Offset} (hr : s.nextInput.rst = false) (ho : s.nextInput.op = some (.read off)) :
    step s = .next (s.afterTick (s.setOut { rdata := some (s.busRead off), txGrant := false })) :=
  step_of_perform hr (by rw [ho]; rfl) (by rw [ho]; rfl) rfl

/-- The tick shows in bit 0 of STATUS only. -/
theorem busRead_afterTick_of_ne {s u : State} {off : Offset} (h : off ≠ 0x1D) :
    (s.afterTick u).busRead off = u.busRead off := by
  have hreg : regAt off ≠ .status := fun hs => h (regAt_injective (off' := 0x1D) hs (by simp [hs]))
  unfold State.busRead
  cases hr : regAt off with
  | status => exact absurd hr hreg
  | _ => rfl

theorem busRead_status_afterTick (s u : State) {k : Nat} (hk : 0 < k) :
    ((s.afterTick u).busRead 0x1D).getLsbD k = (u.busRead 0x1D).getLsbD k :=
  statusByteOf_settling _ _ u.flags k hk

/-- Without a tick the end of a step does not show in the window. -/
theorem busRead_afterTick_of_noTick {s u : State} (htick : s.nextInput.tick = false) (hc : u.settleCnt = s.settleCnt)
    (off : Offset) : (s.afterTick u).busRead off = u.busRead off := by
  rw [State.afterTick, htick]
  simp only [Bool.false_eq_true, if_false]
  rw [← hc]
  rfl

/-! ### A run of register writes -/

/-- `t` holds every register of R20 as `u` does, SETTLE_CNT aside. -/
structure SameRegisters (u t : State) : Prop where
  frm : t.frm = u.frm
  fields : t.fields = u.fields
  txlen : t.txlen = u.txlen
  mode : t.mode = u.mode
  flags : t.flags = u.flags

/-- The input record is a host write to a register other than CMD. -/
def IsRegisterWrite (i : StepInput) : Prop :=
  i.rst = false ∧ ∃ off v, off ≠ cmdOffset ∧ i.op = some (.write off v)

/-- The registers after the write that an input record holds, if it holds one. -/
def State.hostWrite (s : State) (i : StepInput) : State :=
  match i.op with
  | some (.write off v) => s.writeReg (regAt off) v
  | _ => s

theorem hostWrite_of_op {i : StepInput} {off : Offset} {v : Byte} (s : State) (h : i.op = some (.write off v)) :
    s.hostWrite i = s.writeReg (regAt off) v := by
  simp [State.hostWrite, h]

theorem step_write {s : State} {off : Offset} {v : Byte} (hr : s.nextInput.rst = false) (hne : off ≠ cmdOffset)
    (ho : s.nextInput.op = some (.write off v)) :
    step s = .next (s.afterTick (s.beginStep.writeReg (regAt off) v)) :=
  step_of_perform hr (by rw [ho]; exact busWrite_of_ne v _ hne) (by rw [ho]; exact acceptsMode_other s v hne) (by simp)

/-- A register write acts alike on states that agree in their registers, and the step around it adds nothing to them. -/
theorem SameRegisters.write {u s : State} (e : SameRegisters u s) (r : WinReg) (v : Byte) :
    SameRegisters (u.writeReg r v) (s.afterTick (s.beginStep.writeReg r v)) := by
  obtain ⟨hfrm, hfields, htxlen, hmode, hflags⟩ := e
  cases r <;> constructor <;> simp [State.writeReg, State.afterTick, *]

/-- A run of register writes, whatever ticks come with it, leaves the registers as the writes in order leave them, and
the later inputs to come. -/
theorem run_registerWrites {ws rest : List StepInput} (hws : ∀ i ∈ ws, IsRegisterWrite i) :
    ∀ {u s : State}, SameRegisters u s → s.inputs = ws ++ rest →
      ∃ t : State, (∀ k, Host.Core.run core (ws.length + k) s = Host.Core.run core k t) ∧ t.inputs = rest ∧
        SameRegisters (ws.foldl State.hostWrite u) t := by
  induction ws with
  | nil => exact fun {u s} e hin => ⟨s, fun k => by rw [List.length_nil, Nat.zero_add], hin, e⟩
  | cons i is ih =>
    intro u s e hin
    have hi : s.nextInput = i := nextInput_of_inputs hin
    obtain ⟨hr, off, v, hne, ho⟩ := hws i (by simp)
    have hstep := step_write (hi ▸ hr) hne (hi ▸ ho)
    have hfirst := hostWrite_of_op u ho ▸ e.write (regAt off) v
    obtain ⟨t, hrun, hrest, hlast⟩ := ih (fun j hj => hws j (List.mem_cons_of_mem i hj)) hfirst
      (by simp [State.afterTick, hin])
    refine ⟨t, fun k => ?_, hrest, hlast⟩
    rw [List.length_cons, Nat.add_right_comm, run_core_of_step hstep, hrun]

theorem isRegisterWrite_responseLoad (f : Frame) (tick aux : Nat → Bool) :
    ∀ i ∈ responseLoad f tick aux, IsRegisterWrite i := by
  simp [responseLoad, IsRegisterWrite, writeStep, cmdOffset]

/-- The six writes of a received frame load FRM and nothing else (R70). -/
theorem foldl_hostWrite_responseLoad (s : State) (f : Frame) (tick aux : Nat → Bool) :
    (responseLoad f tick aux).foldl State.hostWrite s = s.setFrm f := rfl

/-- A step whose input is UNPACK's byte decodes the frame and then ticks. -/
theorem step_unpack {s : State} {tick aux : Bool} (hi : s.nextInput = commandStep .unpack tick aux) :
    step s = .next (s.afterTick s.beginStep.unpackFrame) :=
  step_of_perform (by rw [hi]; rfl) (by rw [hi]; rfl) (by rw [hi]; rfl) rfl

theorem frameValid_iff (f : Frame) : frameValid f = true ↔ f.b0 = 0xC0 := beq_iff_eq

theorem afterUnpack_decerr_iff (b : StatusFlags) (f : Frame) :
    (b.afterUnpack (frameValid f)).decerr = true ↔ b.decerr = true ∨ f.b0 ≠ 0xC0 := by
  rw [ne_eq, ← frameValid_iff]
  simp [StatusFlags.afterUnpack]

end Sys2Proof.Machine

namespace Sys2Proof.Claims

open Sys2Proof.Machine

/-- Settles O6: a reserved offset holds no register, so nothing is read there and nothing is written. -/
theorem reservedOffsetsReadZeroAndIgnoreWrites : Obligations.ReservedOffsetsReadZeroAndIgnoreWrites := by
  intro off hoff s v
  have hreg := regAt_reservedOffset hoff
  rw [busWrite_of_ne v s (ne_cmdOffset_of_regAt (by simp [hreg])), State.busRead, hreg]
  exact ⟨rfl, rfl⟩

/-- Settles O8: the register written reads back the masked byte, and no other offset shows the write. -/
theorem dataRegisterWriteStoresMaskedByte : Obligations.DataRegisterWriteStoresMaskedByte := by
  intro off v s hoff
  have hdata := isDataReg_regAt hoff
  have hne : off ≠ cmdOffset := ne_cmdOffset_of_regAt fun hcmd => by rw [hcmd] at hdata; exact hdata
  refine ⟨s.writeReg (regAt off) v, busWrite_of_ne v s hne, busRead_writeReg_same s v hdata, fun off' hoff' => ?_,
    sameHidden_writeReg s _ v, writeReg_out s _ v⟩
  exact busRead_writeReg_of_ne s v (mt List.mem_singleton.2 hoff')

/-- Settles O10: the step of a read sets its output and then ticks, and the tick shows in SETTLING only. -/
theorem hostReadReturnsTheByteAndChangesNothing : Obligations.HostReadReturnsTheByteAndChangesNothing := by
  intro s off hr ho
  have hbyte := busRead_eq_readTable s off
  refine ⟨_, step_read hr ho, ?_, fun off' hoff' => ?_, rfl, ⟨rfl, rfl, rfl⟩, fun k hk => ?_, fun htick => ?_, hbyte⟩
  · rw [hbyte]
    rfl
  · exact busRead_afterTick_of_ne (mt List.mem_singleton.2 hoff')
  · exact busRead_status_afterTick s _ hk
  · exact busRead_afterTick_of_noTick htick rfl 0x1D

/-- Settles O12: a register takes the same byte a second time without change. -/
theorem registerWritesAreIdempotent : Obligations.RegisterWritesAreIdempotent := by
  intro off v s t hne h
  rw [busWrite_of_ne v s hne] at h
  injection h with h
  rw [busWrite_of_ne v t hne, ← h, writeReg_writeReg_same]

/-- Settles O13: the offset of an address is its distance from BASE, which is below 32 just inside the window. -/
theorem windowStandsAtBase : Obligations.WindowStandsAtBase :=
  ⟨fun _ => rfl, windowOffset_eq_none_iff, windowOffset_windowAddress, fun _ _ => eq_windowAddress_of_windowOffset⟩

/-- Settles O53: the six writes load FRM and leave the other registers, and UNPACK's step then decodes the frame. -/
theorem loadedResponseIsDecodedByUnpack : Obligations.LoadedResponseIsDecodedByUnpack := by
  intro s f tick aux a b rest hin
  obtain ⟨u, hrun, hrest, hload⟩ :=
    run_registerWrites (isRegisterWrite_responseLoad f tick aux) (u := s) ⟨rfl, rfl, rfl, rfl, rfl⟩ hin
  rw [foldl_hostWrite_responseLoad] at hload
  obtain ⟨(hfrm : u.frm = f), -, htxlen, hmode, (hflags : u.flags = s.flags)⟩ := hload
  have hunpack := step_unpack (nextInput_of_inputs hrest)
  have hend : (u.afterTick u.beginStep.unpackFrame).flags = s.flags.afterUnpack (frameValid f) := by
    rw [← hfrm, ← hflags]
    rfl
  refine ⟨_, (hrun 1).trans (run_core_of_step hunpack), congrArg List.tail hrest, hfrm, congrArg unpack hfrm, htxlen,
    hmode, ?_, ?_⟩ <;> rw [hend]
  · exact frameValid_iff f
  · exact afterUnpack_decerr_iff s.flags f

/-- Settles O7: the three read-only registers take no write, and CMD holds no value. -/
theorem readOnlyRegistersIgnoreWrites : Obligations.ReadOnlyRegistersIgnoreWrites := by
  intro s v
  exact ⟨busWrite_of_ne v s (by decide), busWrite_of_ne v s (by decide), busWrite_of_ne v s (by decide), rfl⟩

/-- Settles O25: the two address bytes stand unchanged in FRM[1] and FRM[2] after a request of the fields, and in F_ADDH
and F_ADDL after UNPACK. -/
theorem codecCarriesTheNodeAddress : Obligations.CodecCarriesTheNodeAddress := by
  intro s
  refine ⟨fun i hi => ?_, s.unpackFrame, rfl, rfl⟩
  rcases List.mem_pair.1 hi with rfl | rfl
  · exact ⟨s.loadRequest (pack s.fields) 6, rfl, rfl⟩
  · exact ⟨s.loadRequest (packPersistFrame s.fields) 6, rfl, rfl⟩

end Sys2Proof.Claims
end

section
/-! SUPPORT. The encodings (30_encoding.md): the command byte by its two digits, the host-op word by its kind, the step
of a command byte, and the host's WAIT_SETTLED loop. -/

namespace Sys2Proof

/-! ### The command byte -/

@[simp] theorem cmdOp_append (op arg : BitVec 4) : cmdOp (op ++ arg) = op := BitVec.extractLsb'_append_eq_left

@[simp] theorem cmdArg_append (op arg : BitVec 4) : cmdArg (op ++ arg) = arg := BitVec.extractLsb'_append_eq_right

theorem cmdOp_toNat (v : Byte) : (cmdOp v).toNat = v.toNat / 16 := by
  have hlt : v.toNat < 256 := v.isLt
  rw [cmdOp, BitVec.extractLsb'_toNat, Nat.shiftRight_eq_div_pow]
  omega

theorem cmdArg_toNat (v : Byte) : (cmdArg v).toNat = v.toNat % 16 := by
  simp [cmdArg]

/-- The opcodes that name no command without an operand: SET_MODE's, and those of case (a) of R88. -/
theorem plainCommand_eq_none_iff (op : BitVec 4) : plainCommand op = none ↔ op.toNat = 6 ∨ 10 ≤ op.toNat := by
  revert op
  decide

theorem decode_plain {op : BitVec 4} {i : Instr} (h : plainCommand op = some i) :
    decode (op ++ 0x0#4) = .command i := by
  have hop : op ≠ 0x6#4 := by rintro rfl; cases h
  simp [decode, hop, h]

theorem decode_setMode (m : ModeCode) : decode (0x6#4 ++ (0b00#2 ++ m)) = .command (.setMode m) := by
  have hhigh : (0b00#2 ++ m).extractLsb' 2 2 = 0b00#2 := BitVec.extractLsb'_append_eq_left
  have hlow : (0b00#2 ++ m).extractLsb' 0 2 = m := BitVec.extractLsb'_append_eq_right
  simp [decode, hhigh, hlow]

theorem decode_encode (i : Instr) : decode (encode i) = .command i := by
  cases i with
  | setMode m => exact decode_setMode m
  | _ => exact decode_plain rfl

/-- The two high bits of an operand, which SET_MODE wants to be 0. -/
theorem operandHigh_eq_zero_iff (arg : BitVec 4) : arg.extractLsb' 2 2 = 0b00#2 ↔ arg.toNat / 4 = 0 := by
  revert arg
  decide

theorem command?_of_modeOpcode {v : Byte} (hop : (cmdOp v).toNat = 6) :
    (decode v).command? = none ↔ (cmdArg v).toNat / 4 ≠ 0 := by
  have hmode : cmdOp v = 0x6#4 := BitVec.eq_of_toNat_eq hop
  rw [ne_eq, ← operandHigh_eq_zero_iff, decode, if_pos hmode]
  split <;> simp [Decoded.command?, *]

theorem command?_of_otherOpcode {v : Byte} (hop : (cmdOp v).toNat ≠ 6) :
    (decode v).command? = none ↔ 10 ≤ (cmdOp v).toNat ∨ (cmdArg v).toNat ≠ 0 := by
  have hne : cmdOp v ≠ 0x6#4 := fun h => hop (congrArg BitVec.toNat h)
  have hzero : (cmdArg v).toNat = 0 ↔ cmdArg v = 0x0#4 := BitVec.toNat_inj (y := 0x0#4)
  have hplain := plainCommand_eq_none_iff (cmdOp v)
  rw [decode, if_neg hne, ne_eq, hzero]
  cases hcommand : plainCommand (cmdOp v) with
  | none => simp [Decoded.command?, (hplain.1 hcommand).resolve_left hop]
  | some i =>
    have hlow : ¬ 10 ≤ (cmdOp v).toNat := fun h => by rw [hplain.2 (.inr h)] at hcommand; cases hcommand
    by_cases harg : cmdArg v = 0x0#4 <;> simp [Decoded.command?, hlow, harg]

/-- The reserved bytes are those of R88's cases (a) and (b). -/
theorem command?_eq_none_iff (v : Byte) : (decode v).command? = none ↔ Claims.ReservedDigits v := by
  rw [Claims.ReservedDigits, ← cmdOp_toNat, ← cmdArg_toNat]
  by_cases hop : (cmdOp v).toNat = 6
  · rw [command?_of_modeOpcode hop]
    omega
  · rw [command?_of_otherOpcode hop]
    omega

/-! ### The host-op word -/

theorem decodeHostWord_encodeHostWord {i : StepInput} (h : i.wellFormed = true) :
    decodeHostWord (encodeHostWord i) i.aux = .input i := by
  obtain ⟨rst, op, tick, aux⟩ := i
  cases rst with
  | true =>
    have hop : op = none := by simpa [StepInput.wellFormed] using h
    simp [encodeHostWord, decodeHostWord, hostWordProblem, hostWordOp, packHostWord_parts, hop]
  | false =>
    rcases op with _ | off | ⟨off, v⟩ <;>
      simp [encodeHostWord, decodeHostWord, hostWordProblem, hostWordOp, packHostWord_parts]

/-- The input record that the parts of a host-op word give. -/
def hostWordInput (w : HostWord) (aux : Bool) : StepInput :=
  { rst := hostWordKind w = 0b11#2, op := hostWordOp w, tick := hostWordTick w, aux := aux }

theorem decodeHostWord_eq_input_iff (w : HostWord) (aux : Bool) (i : StepInput) :
    decodeHostWord w aux = .input i ↔ hostWordProblem w = none ∧ hostWordInput w aux = i := by
  unfold decodeHostWord
  cases hostWordProblem w <;> simp [hostWordInput]

theorem hostWordInput_wellFormed (w : HostWord) (aux : Bool) : (hostWordInput w aux).wellFormed = true := by
  by_cases hk : hostWordKind w = 0b11#2 <;> simp [hostWordInput, StepInput.wellFormed, hostWordOp, hk]

/-- A host-op word with no problem is of one of the four kinds, with the bits 0 that its kind gives as 0. -/
theorem hostWordKind_cases {w : HostWord} (h : hostWordProblem w = none) :
    (hostWordKind w = 0b00#2 ∧ hostWordData w = 0) ∨ hostWordKind w = 0b01#2 ∨
      (hostWordKind w = 0b10#2 ∧ hostWordOffset w = 0 ∧ hostWordData w = 0) ∨
      (hostWordKind w = 0b11#2 ∧ hostWordOffset w = 0 ∧ hostWordData w = 0) := by
  have hkinds : ∀ k : BitVec 2, k = 0b00#2 ∨ k = 0b01#2 ∨ k = 0b10#2 ∨ k = 0b11#2 := by decide
  unfold hostWordProblem at h
  rcases hkinds (hostWordKind w) with hk | hk | hk | hk <;> simp_all

/-- The parts that the encoder leaves 0 are 0 in a word with no problem, so it puts the same four parts together. -/
theorem encodeHostWord_hostWordInput {w : HostWord} (h : hostWordProblem w = none) (aux : Bool) :
    encodeHostWord (hostWordInput w aux) = w := by
  calc encodeHostWord (hostWordInput w aux)
      = packHostWord (hostWordKind w) (hostWordTick w) (hostWordOffset w) (hostWordData w) := by
        rcases hostWordKind_cases h with ⟨hk, hd⟩ | hk | ⟨hk, ho, hd⟩ | ⟨hk, ho, hd⟩ <;>
          simp [encodeHostWord, hostWordInput, hostWordOp, *]
    _ = w := packHostWord_of_parts w

end Sys2Proof

namespace Sys2Proof.Machine

open Sys2Proof.Claims

/-! ### The step of a command byte -/

/-- States that agree in the data registers, TXLEN and MODE show the same at every offset but STATUS. -/
theorem sameExcept_status {s t : State} (hfrm : t.frm = s.frm) (hfields : t.fields = s.fields)
    (htxlen : t.txlen = s.txlen) (hmode : t.mode = s.mode) : SameExcept [0x1D] s t := by
  intro off hoff
  have hne : off ≠ 0x1D := mt List.mem_singleton.2 hoff
  have hreg : regAt off ≠ .status := fun h => hne (regAt_injective (off' := 0x1D) h (by simp [h]))
  unfold State.busRead
  cases hr : regAt off with
  | status => exact absurd hr hreg
  | _ => simp [State.readReg, *]

theorem executeByte_command {v : Byte} {i : Instr} (h : decode v = .command i) (s : State) :
    executeByte v s = exec i s := by
  rw [executeByte, h]

theorem executeByte_reserved {v : Byte} {why : ReservedByte} (h : decode v = .reserved why) (s : State) :
    executeByte v s = .next (s.flagError .cmderr) := by
  rw [executeByte, h]

theorem step_eq_of_perform {s u : State} (hr : s.nextInput.rst = false)
    (hp : perform s.nextInput.op s.beginStep = .next u) :
    step s = .next (u.applyTick s.nextInput.tick (s.acceptsMode s.nextInput.op)).endStep := by
  simp [step, stepOn, hostStep, hr, hp, afterNext]

theorem step_command {s u : State} {v : Byte} {i : Instr} (hr : s.nextInput.rst = false)
    (hw : WritesCmd s.nextInput v) (hd : decode v = .command i) (hu : exec i s.beginStep = .next u) :
    step s = .next (u.applyTick s.nextInput.tick (isSetMode i && !s.settling)).endStep := by
  have hop : s.nextInput.op = some (.write cmdOffset v) := hw
  rw [← acceptsMode_command s hd, ← hop]
  refine step_eq_of_perform hr ?_
  rw [hop, ← hu, ← executeByte_command hd]
  rfl

/-! ### The WAIT_SETTLED loop -/

theorem SameRegisters.trans {s u t : State} (h : SameRegisters s u) (h' : SameRegisters u t) : SameRegisters s t :=
  ⟨h'.frm.trans h.frm, h'.fields.trans h.fields, h'.txlen.trans h.txlen, h'.mode.trans h.mode, h'.flags.trans h.flags⟩

theorem step_idle {s : State} (hr : s.nextInput.rst = false) (ho : s.nextInput.op = none) :
    step s = .next (s.afterTick s.beginStep) :=
  step_of_perform hr (by rw [ho]; rfl) (by rw [ho]; rfl) rfl

theorem busRead_status_settling (s : State) : (s.busRead 0x1D).getLsbD 0 = s.settling := by
  obtain ⟨hsettling, -⟩ := statusByteOf_getLsbD s.settling s.flags
  exact hsettling

/-- From `s` to `t`, with `rest` still to come, the settle counter went down by `n` and no register changed. -/
structure Waited (n : Nat) (rest : List StepInput) (s t : State) : Prop where
  inputs : t.inputs = rest
  settleCnt : t.settleCnt = s.settleCnt - n
  registers : SameRegisters s t

theorem Waited.trans {m n : Nat} {rest rest' : List StepInput} {s u t : State} (h : Waited m rest s u)
    (h' : Waited n rest' u t) : Waited (m + n) rest' s t :=
  ⟨h'.inputs, by rw [h'.settleCnt, h.settleCnt, Nat.sub_sub], h.registers.trans h'.registers⟩

/-- `RD off` without a tick waits for no tick. -/
theorem step_read_waited {s : State} {off : Offset} {aux : Bool} {rest : List StepInput}
    (h : s.inputs = { rst := false, op := some (.read off), tick := false, aux := aux } :: rest) :
    ∃ t, step s = .next t ∧ Waited 0 rest s t := by
  have hi := nextInput_of_inputs h
  refine ⟨_, step_read (by rw [hi]) (by rw [hi]), congrArg List.tail h, ?_, rfl, rfl, rfl, rfl, rfl⟩
  simp [State.afterTick, hi]

/-- `TICK` waits for one tick. -/
theorem step_tick_waited {s : State} {aux : Bool} {rest : List StepInput}
    (h : s.inputs = { rst := false, op := none, tick := true, aux := aux } :: rest) :
    ∃ t, step s = .next t ∧ Waited 1 rest s t := by
  have hi := nextInput_of_inputs h
  refine ⟨_, step_idle (by rw [hi]) (by rw [hi]), congrArg List.tail h, ?_, rfl, rfl, rfl, rfl, rfl⟩
  simp [State.afterTick, hi]

/-- Each round of the loop is a read and a tick. -/
theorem run_waitSettled (aux : Nat → Bool) (n : Nat) {rest : List StepInput} :
    ∀ {s : State}, s.inputs = waitSettled aux n ++ rest →
      ∃ t : State, Host.Core.run core (2 * n) s = .next t ∧ Waited n rest s t := by
  induction n with
  | zero => exact fun {s} h => ⟨s, rfl, h, rfl, rfl, rfl, rfl, rfl, rfl⟩
  | succ n ih =>
    intro s h
    obtain ⟨u, hread, hu⟩ := step_read_waited h
    obtain ⟨v, htick, hv⟩ := step_tick_waited hu.inputs
    obtain ⟨t, hrun, ht⟩ := ih hv.inputs
    refine ⟨t, ?_, Nat.add_comm n 1 ▸ (hu.trans hv).trans ht⟩
    rw [Nat.mul_succ, run_core_of_step hread, run_core_of_step htick, hrun]

end Sys2Proof.Machine

namespace Sys2Proof.Claims

open Sys2Proof.Machine

/-- Settles O1: the operand's bits and the opcode come out of the byte as they went in. -/
theorem decodeOfEncodeIsTheCommand : Obligations.DecodeOfEncodeIsTheCommand :=
  fun i _ => decode_encode i

/-- Settles O2: every command is well formed, and its byte is the only one that decodes to it. -/
theorem legalByteIsTheBytesOfItsCommand : Obligations.LegalByteIsTheBytesOfItsCommand :=
  fun _ i h => ⟨wellFormed_all i, encode_of_decode h⟩

/-- Settles O4: the digits say which bytes decode to no command, and CMDERR shows in STATUS only. -/
theorem reservedBytesOnlySetCmderr : Obligations.ReservedBytesOnlySetCmderr := by
  intro v
  rw [← command?_eq_none_iff]
  cases hd : decode v with
  | command i => exact ⟨fun h => absurd h (Option.some_ne_none i), fun _ => ⟨i, rfl⟩⟩
  | reserved why =>
    refine ⟨fun _ s => ⟨s.flagError .cmderr, executeByte_reserved hd s, ?_, ?_, ⟨rfl, rfl, rfl, rfl⟩, rfl⟩,
      fun h => absurd rfl h⟩
    · exact statusByteOf_raise_cmderr s.settling s.flags
    · exact sameExcept_status rfl rfl rfl rfl

/-- Settles O5: the four parts of a word give its record, and the record gives the four parts back. -/
theorem hostWordNotationRoundTrips : Obligations.HostWordNotationRoundTrips := by
  refine ⟨fun i => decodeHostWord_encodeHostWord, fun w aux i h => ?_⟩
  obtain ⟨hw, rfl⟩ := (decodeHostWord_eq_input_iff w aux i).1 h
  exact ⟨hostWordInput_wellFormed w aux, rfl, encodeHostWord_hostWordInput hw aux⟩

/-- Settles O31: after `n` rounds the counter stands `n` lower, which is 0 for the first time at SETTLE_CNT rounds. -/
theorem waitSettledEndsAfterSettleCntTicks : Obligations.WaitSettledEndsAfterSettleCntTicks := by
  intro s aux n rest hn hin
  obtain ⟨t, hrun, hrest, hcnt, ⟨hfrm, hfields, htxlen, hmode, hflags⟩⟩ := run_waitSettled aux n hin
  refine ⟨t, hrun, hrest, hcnt, ?_, sameExcept_status hfrm hfields htxlen hmode, hflags⟩
  rw [busRead_status_settling, ← Bool.not_eq_true, settling_iff, hcnt]
  omega

/-- Settles O3: each legal byte of the table is the byte of its command, and the neighbours are reserved for the reasons
written. -/
theorem commandBytesDecodeAsTheTableSays : Obligations.CommandBytesDecodeAsTheTableSays :=
  ⟨decode_encode .nop, decode_encode .pack, decode_encode .packPersist, decode_encode .unpack, decode_encode .reqRead,
    decode_encode .reqReset, decode_encode (.setMode 0), decode_encode (.setMode 1), decode_encode (.setMode 2),
    decode_encode (.setMode 3), decode_encode .poll, decode_encode .gsend, decode_encode .clrErr,
    ⟨.operand 0x6 0x4, rfl⟩, ⟨.operand 0x9 0x1, rfl⟩, ⟨.opcode 0xA, rfl⟩⟩

/-- Settles O46: the write of the byte runs its command, and the tick is dropped exactly by an accepted SET_MODE. -/
theorem stepRunsTheDecodedCommand : Obligations.StepRunsTheDecodedCommand := by
  intro s v i hr hw hd
  obtain ⟨u, hu, -⟩ := exec_next i s.beginStep
  exact ⟨u, hu, step_command hr hw hd hu⟩

/-- Settles O47: the record placed stands at the head, and nothing else is touched. -/
theorem withFetchWordPlacesTheCommand : Obligations.WithFetchWordPlacesTheCommand :=
  fun _ _ _ => ⟨rfl, rfl, rfl⟩

end Sys2Proof.Claims
end

section
/-! SUPPORT. The codec (40_codec.md): the record and the frame, the node address, and, for each command, what the window
shows after it and what it leaves alone. -/

namespace Sys2Proof.Machine

open Sys2Proof.Claims

/-! ### The codec functions -/

/-- A record comes back from its frame, the speed and the options byte field by field (R128). -/
theorem unpack_pack (rec : Fields) : unpack (pack rec) = rec := by
  simp only [unpack, pack, unpackSpeed_packSpeed, unpackOptions_packOptions]

/-- A frame comes back from its record (R128). -/
theorem pack_unpack (frm : Frame) : pack (unpack frm) = frm := by
  simp only [pack, unpack, packSpeed_unpackSpeed, packOptions_unpackOptions]

theorem addr16_toNat (hi lo : Byte) : (addr16 hi lo).toNat = 256 * hi.toNat + lo.toNat := by
  rw [addr16_eq_append, BitVec.toNat_append, ← Nat.shiftLeft_add_eq_or_of_lt lo.isLt, Nat.shiftLeft_eq, Nat.mul_comm]

theorem split16_addr16 (hi lo : Byte) : split16 (addr16 hi lo) = (hi, lo) := by
  rw [addr16_eq_append]
  exact Prod.ext BitVec.extractLsb'_append_eq_left BitVec.extractLsb'_append_eq_right

theorem addr16_split16 (a : Address) : addr16 (split16 a).1 (split16 a).2 = a := by
  rw [addr16_eq_append]
  exact (BitVec.extractLsb'_append_extractLsb'_eq_extractLsb' rfl).trans BitVec.extractLsb'_eq_self

/-! ### What a command leaves alone -/

/-- When only the registers `regs` can read differently, only their offsets can. -/
theorem sameExcept_of_readReg {s t : State} {offs : List Offset} {regs : List WinReg}
    (hregs : ∀ off, off ∉ offs → regAt off ∉ regs) (h : ∀ r, r ∉ regs → t.readReg r = s.readReg r) :
    SameExcept offs s t :=
  fun off hoff => h (regAt off) (hregs off hoff)

theorem sameHidden_loadRequest (s : State) (f : Frame) (n : BitVec 3) : SameHidden s (s.loadRequest f n) :=
  ⟨rfl, rfl, rfl, rfl⟩

/-- A request shows in FRM and TXLEN only. -/
theorem sameExcept_loadRequest (s : State) (f : Frame) (n : BitVec 3) :
    SameExcept [0x00, 0x01, 0x02, 0x03, 0x04, 0x05, 0x06] s (s.loadRequest f n) := by
  refine sameExcept_of_readReg (regs := [.frm0, .frm1, .frm2, .frm3, .frm4, .frm5, .txlen]) (by decide) fun r hr => ?_
  cases r with
  | frm0 | frm1 | frm2 | frm3 | frm4 | frm5 | txlen => simp at hr
  | field | mode | status | cmd | reserved => rfl

/-- A 3-byte request shows in FRM[0..2] and TXLEN only (R133, R134). -/
theorem sameExcept_shortRequest (s : State) (b : Byte) (n : BitVec 3) :
    SameExcept [0x00, 0x01, 0x02, 0x06] s (s.loadRequest (shortRequest b s.frm) n) := by
  refine sameExcept_of_readReg (regs := [.frm0, .frm1, .frm2, .txlen]) (by decide) fun r hr => ?_
  cases r with
  | frm0 | frm1 | frm2 | txlen => simp at hr
  | frm3 | frm4 | frm5 | field | mode | status | cmd | reserved => rfl

/-- The requests of PACK and PACK_PERSIST differ in FRM[0] only (R131). -/
theorem sameExcept_packPersistFrame (s : State) (rec : Fields) (n : BitVec 3) :
    SameExcept [0x00] (s.loadRequest (pack rec) n) (s.loadRequest (packPersistFrame rec) n) := by
  refine sameExcept_of_readReg (regs := [.frm0]) (by decide) fun r hr => ?_
  cases r with
  | frm0 => simp at hr
  | frm1 | frm2 | frm3 | frm4 | frm5 | txlen | field | mode | status | cmd | reserved => rfl

theorem isFieldOffset_of_regAt {off : Offset} {f : FieldReg} (h : regAt off = .field f) : IsFieldOffset off := by
  have hoff : fieldOffset f = off := by simpa [h, offsetOf] using offsetOf_regAt off (by simp [h])
  subst hoff
  cases f <;> exact ⟨by decide, by decide⟩

/-- UNPACK shows in the field registers and STATUS only (R132). -/
theorem busRead_unpackFrame_of_ne (s : State) {off : Offset} (hfield : ¬ IsFieldOffset off) (hstatus : off ≠ 0x1D) :
    s.unpackFrame.busRead off = s.busRead off := by
  unfold State.busRead
  cases hreg : regAt off with
  | field f => exact absurd (isFieldOffset_of_regAt hreg) hfield
  | status => exact absurd (regAt_injective (off' := 0x1D) hreg (by simp [hreg])) hstatus
  | frm0 | frm1 | frm2 | frm3 | frm4 | frm5 | txlen | mode | cmd | reserved => rfl

/-! ### What a command stores -/

theorem requestBytes_shortRequest (s : State) (b : Byte) :
    (s.loadRequest (shortRequest b s.frm) 3).requestBytes = [b, b, b] := rfl

/-- A request of six bytes is the whole frame on the wire (R70). -/
theorem requestBytes_fullRequest (s : State) (f : Frame) : (s.loadRequest f 6).requestBytes = f.toList := rfl

/-- The marker check in the STATUS byte: VALID by the check, DECERR set when it fails and kept otherwise (R132). -/
theorem statusByteOf_afterUnpack (x : Bool) (f : StatusFlags) (ok : Bool) :
    statusByteOf x (f.afterUnpack ok) =
      if ok = true then statusByteOf x f ||| 0x02 else statusByteOf x f &&& 0xFD ||| 0x10 := by
  obtain ⟨a, b, c, d, e, g⟩ := f
  revert x ok a b c d e g
  decide

/-- Clearing the error flags clears bits 4 to 6 of the STATUS byte, and bit 7 is 0 anyway (R135, R45). -/
theorem statusByteOf_clearErrors (x : Bool) (f : StatusFlags) :
    statusByteOf x f.clearErrors = statusByteOf x f &&& 0x0F := by
  obtain ⟨a, b, c, d, e, g⟩ := f
  revert x a b c d e g
  decide

/-- A step whose operation writes NOP's byte does nothing but tick. -/
theorem step_nop {s : State} (hr : s.nextInput.rst = false) (hw : WritesCmd s.nextInput 0x00) :
    step s = .next (s.afterTick s.beginStep) := by
  rw [step_command hr hw (decode_encode .nop) rfl]
  exact congrArg _ (applyTick_afterTick rfl)

end Sys2Proof.Machine

namespace Sys2Proof.Claims

open Sys2Proof.Machine

/-- Settles O14: the speed and the options byte are inverse field by field, and the other bytes are copied. -/
theorem packAndUnpackAreInverse : Obligations.PackAndUnpackAreInverse :=
  ⟨unpack_pack, pack_unpack, fun rec hmarker => (frameValid_iff (pack rec)).2 hmarker⟩

/-- Settles O15: the address is the two bytes joined, the high one first. -/
theorem nodeAddressIsBigEndian : Obligations.NodeAddressIsBigEndian :=
  ⟨fun hi lo => ⟨addr16_toNat hi lo, split16_addr16 hi lo⟩, addr16_split16⟩

/-- Settles O17: the frame bytes are `pack`'s of the fields as they read, and a request shows in FRM and TXLEN only. -/
theorem packBuildsTheFrameOfTheFields : Obligations.PackBuildsTheFrameOfTheFields :=
  ⟨decode_encode .pack, fun s => ⟨s.loadRequest (pack s.fields) 6, rfl, rfl, rfl, rfl, rfl, rfl, rfl, rfl,
    sameExcept_loadRequest s _ 6, sameHidden_loadRequest s _ 6, rfl⟩⟩

/-- Settles O18: the request is PACK's with the persist sentinel in FRM[0], which is what the marker check wants. -/
theorem packPersistBuildsTheWriteRequest : Obligations.PackPersistBuildsTheWriteRequest := by
  refine ⟨decode_encode .packPersist, fun s => ?_⟩
  have hpack : SameExcept [0x00] (s.loadRequest (pack s.fields) 6) (s.loadRequest (packPersistFrame s.fields) 6) :=
    sameExcept_packPersistFrame s s.fields 6
  exact ⟨s.loadRequest (packPersistFrame s.fields) 6, rfl, requestBytes_fullRequest s _, rfl, rfl,
    (frameValid_iff (packPersistFrame s.fields)).2 rfl, ⟨_, rfl, hpack⟩,
    sameExcept_loadRequest s _ 6, sameHidden_loadRequest s _ 6, rfl⟩

/-- Settles O19: the fields of the speed and the options byte read as their bits, and the marker check decides VALID and
DECERR. -/
theorem unpackDecodesTheFrameAndChecksTheMarker : Obligations.UnpackDecodesTheFrameAndChecksTheMarker := by
  refine ⟨decode_encode .unpack, fun s => ?_⟩
  obtain ⟨hparity, hurate, harate⟩ := unpackSpeed_bytes s.frm.b3
  obtain ⟨htxmode, hpullup, hwake, hfec, hpower⟩ := unpackOptions_bytes s.frm.b5
  have hstatus : s.unpackFrame.busRead 0x1D =
      if s.busRead 0x00 = 0xC0 then s.busRead 0x1D ||| 0x02 else s.busRead 0x1D &&& 0xFD ||| 0x10 := by
    have hcheck := statusByteOf_afterUnpack s.settling s.flags (frameValid s.frm)
    simp only [frameValid_iff] at hcheck
    exact hcheck
  exact ⟨s.unpackFrame, rfl, rfl, rfl, rfl, hparity, hurate, harate, rfl, htxmode, hpullup, hwake, hfec, hpower, hstatus,
    fun _ => busRead_unpackFrame_of_ne s, ⟨rfl, rfl, rfl, rfl⟩, rfl⟩

/-- Settles O20: the 3-byte request of the read sentinel. -/
theorem reqReadBuildsTheReadRequest : Obligations.ReqReadBuildsTheReadRequest :=
  ⟨decode_encode .reqRead, fun s => ⟨_, rfl, requestBytes_shortRequest s readSentinel, rfl, rfl, rfl, rfl,
    sameExcept_shortRequest s readSentinel 3, sameHidden_loadRequest s _ 3, rfl⟩⟩

/-- Settles O21: the 3-byte request of the reset sentinel. -/
theorem reqResetBuildsTheResetRequest : Obligations.ReqResetBuildsTheResetRequest :=
  ⟨decode_encode .reqReset, fun s => ⟨_, rfl, requestBytes_shortRequest s resetSentinel, rfl, rfl, rfl, rfl,
    sameExcept_shortRequest s resetSentinel 3, sameHidden_loadRequest s _ 3, rfl⟩⟩

/-- Settles O22: the error flags are bits 4 to 6 of STATUS, and only STATUS shows them. -/
theorem clrErrClearsTheStickyFlagsOnly : Obligations.ClrErrClearsTheStickyFlagsOnly :=
  ⟨decode_encode .clrErr, fun s => ⟨_, rfl, statusByteOf_clearErrors s.settling s.flags,
    sameExcept_status rfl rfl rfl rfl, ⟨rfl, rfl, rfl, rfl⟩, rfl⟩⟩

/-- Settles O24: the fields come back from the frame they were packed into, whose marker is F_MARKER. -/
theorem unpackAfterPackRestoresTheFields : Obligations.UnpackAfterPackRestoresTheFields := by
  intro s
  refine ⟨s.loadRequest (pack s.fields) 6, (s.loadRequest (pack s.fields) 6).unpackFrame, rfl, rfl,
    fun off hoff => busRead_field_congr hoff (unpack_pack s.fields), ?_⟩
  rw [busRead_status_valid]
  exact frameValid_iff (pack s.fields)

/-- Settles O16: NOP's step is its tick, which shows in SETTLING only. -/
theorem nopDoesNothingAndLetsTheTickPass : Obligations.NopDoesNothingAndLetsTheTickPass := by
  refine ⟨decode_encode .nop, fun _ => rfl, fun s hr hw => ⟨_, step_nop hr hw, fun off hoff => ?_, fun k hk => ?_, rfl,
    ⟨rfl, rfl, rfl⟩⟩⟩
  · exact busRead_afterTick_of_ne (mt List.mem_singleton.2 hoff)
  · exact busRead_status_afterTick s _ hk

/-- Settles O23: each command's new state is built of FRM, the fields and the flags alone, with MODE and SETTLE_CNT carried
over. -/
theorem codecCommandsIgnoreModeAndSettle : Obligations.CodecCommandsIgnoreModeAndSettle := by
  intro i hi s m n
  simp only [List.mem_cons, List.not_mem_nil, or_false] at hi
  rcases hi with rfl | rfl | rfl | rfl | rfl | rfl | rfl <;> exact ⟨_, rfl, rfl, rfl, rfl⟩

end Sys2Proof.Claims
end

section
/-! SUPPORT. The ModeController (41_mode.md): an accepted SET_MODE's step, what every step without reset and without one
keeps of the mode and the gate, and a run of such steps while the settle counter goes down. -/

namespace Sys2Proof.Machine

open Sys2Proof.Claims

/-! ### SET_MODE -/

theorem encode_setMode (m : ModeCode) : encode (.setMode m) = 0x60 + m.setWidth 8 := by
  revert m
  decide

theorem decode_setModeByte (m : ModeCode) : decode (0x60 + m.setWidth 8) = .command (.setMode m) := by
  rw [← encode_setMode]
  exact decode_encode (.setMode m)

theorem busRead_mode (s : State) : s.busRead 0x1C = s.mode.setWidth 8 := rfl

theorem modeA_eq_busRead (s : State) : s.modeA = (s.busRead 0x1C).getLsbD 0 := by
  rw [busRead_mode, BitVec.getLsbD_setWidth]
  rfl

theorem modeB_eq_busRead (s : State) : s.modeB = (s.busRead 0x1C).getLsbD 1 := by
  rw [busRead_mode, BitVec.getLsbD_setWidth]
  rfl

theorem settling_eq_false_iff (s : State) : s.settling = false ↔ s.settleCnt = 0 := by
  rw [← Bool.not_eq_true, settling_iff, not_not]

theorem exec_setMode_settling {s : State} (m : ModeCode) (h : s.settleCnt ≠ 0) :
    exec (.setMode m) s = .next (s.flagError .busyerr) :=
  congrArg _ (requestMode_settling m ((settling_iff s).2 h))

theorem exec_setMode_settled {s : State} (m : ModeCode) (h : s.settleCnt = 0) :
    exec (.setMode m) s = .next (s.enterMode m) :=
  congrArg _ (requestMode_settled m ((settling_eq_false_iff s).2 h))

/-- SETTLING is bit 0 of the STATUS byte, and the flags keep their places when it becomes 1. -/
theorem statusByteOf_true_eq_or (x : Bool) (f : StatusFlags) : statusByteOf true f = statusByteOf x f ||| 0x01 := by
  obtain ⟨a, b, c, d, e, g⟩ := f
  revert x a b c d e g
  decide

/-- Entering a mode shows in MODE and STATUS only. -/
theorem sameExcept_enterMode (s : State) (m : ModeCode) : SameExcept [0x1C, 0x1D] s (s.enterMode m) := by
  refine sameExcept_of_readReg (regs := [.mode, .status]) (by decide) fun r hr => ?_
  cases r with
  | mode | status => simp at hr
  | frm0 | frm1 | frm2 | frm3 | frm4 | frm5 | txlen | field | cmd | reserved => rfl

/-- With SETTLE_TICKS at least 1 (R7), the block settles in the mode entered. -/
theorem busRead_status_enterMode {s : State} (m : ModeCode) (h : 1 ≤ s.settleTicks) :
    (s.enterMode m).busRead 0x1D = s.busRead 0x1D ||| 0x01 := by
  have hset : (s.enterMode m).settling = true := (settling_iff (s.enterMode m)).2 (Nat.one_le_iff_ne_zero.1 h)
  rw [busRead_status, hset]
  exact statusByteOf_true_eq_or s.settling s.flags

/-! ### The step and the mode -/

theorem step_of_reset {s : State} (h : s.nextInput.rst = true) : step s = .next s.takeReset.endStep := if_pos h

/-- The step of an accepted SET_MODE enters the mode, and its tick is lost (R162). -/
theorem step_of_acceptsMode {s : State} {m : ModeCode} (h : AcceptsMode s m) :
    step s = .next (s.beginStep.enterMode m).endStep := by
  obtain ⟨hr, hw, hc⟩ := h
  rw [step_command hr hw (decode_setModeByte m) (exec_setMode_settled m hc), (settling_eq_false_iff s).2 hc]
  simp [isSetMode, State.applyTick]

theorem acceptsMode_of_decode {s : State} {v : Byte} {m : ModeCode} (hr : s.nextInput.rst = false)
    (ho : s.nextInput.op = some (.write cmdOffset v)) (hd : decode v = .command (.setMode m)) (hc : s.settleCnt = 0) :
    AcceptsMode s m := by
  refine ⟨hr, ?_, hc⟩
  rw [WritesSetMode, ← encode_setMode, encode_of_decode hd]
  exact ho

/-- What the host operation of a step keeps of the mode and the gate, from `s` at the step's start to `u` before its tick: a
grant pulse takes a counter of 0 (42_flowgate.md R189). -/
structure KeepsGate (s u : State) : Prop where
  mode : u.mode = s.mode
  inputs : u.inputs = s.inputs
  settled_of_grant : u.out.txGrant = true → s.settleCnt = 0

/-- An operation that leaves the outputs as the step's beginning set them pulses nothing. -/
theorem keepsGate_of_noPulse {s u : State} (hmode : u.mode = s.mode) (hin : u.inputs = s.inputs)
    (hpulse : u.out.txGrant = false) : KeepsGate s u :=
  ⟨hmode, hin, fun h => absurd (hpulse.symm.trans h) Bool.false_ne_true⟩

theorem keepsGate_of_exec {s u : State} {i : Instr} (hi : isSetMode i = false) (h : exec i s.beginStep = .next u) :
    KeepsGate s u := by
  cases i <;> injection h with h <;> subst h
  case setMode m => cases hi
  case gsend =>
    refine ⟨rfl, rfl, fun hverdict => ?_⟩
    obtain ⟨-, hzero, -⟩ := (grantOk_iff s.sampleAux s.settleCnt s.mode).1 hverdict
    exact hzero
  case nop | pack | packPersist | unpack | reqRead | reqReset | poll | clrErr => exact keepsGate_of_noPulse rfl rfl rfl

theorem keepsGate_writeReg (s : State) (r : WinReg) (v : Byte) : KeepsGate s (s.beginStep.writeReg r v) := by
  obtain ⟨f, g, hw⟩ := writeReg_eq s.beginStep r v
  rw [hw]
  exact keepsGate_of_noPulse rfl rfl rfl

/-- A step that neither resets nor accepts a SET_MODE is an operation that keeps mode and gate, and then the tick. -/
theorem afterTick_of_step {s t : State} (h : step s = .next t) (hr : s.nextInput.rst = false)
    (hn : ¬ ∃ m, AcceptsMode s m) : ∃ u, t = s.afterTick u ∧ KeepsGate s u := by
  cases stepCase_of_step h with
  | reset hrst => rw [hr] at hrst; cases hrst
  | modeAccepted v m _ ho hd hc => exact absurd ⟨m, acceptsMode_of_decode hr ho hd hc⟩ hn
  | write off v _ _ _ e => exact ⟨_, e, keepsGate_writeReg s _ v⟩
  | command v i u _ _ _ hi hu e => exact ⟨u, e, keepsGate_of_exec hi hu⟩
  | idle _ _ e | read _ _ _ e | reservedByte _ _ _ _ _ e | modeRefused _ _ _ _ _ _ e =>
    exact ⟨_, e, keepsGate_of_noPulse rfl rfl rfl⟩

theorem settleCnt_afterTick (s u : State) : (s.afterTick u).settleCnt = ticked s.nextInput.tick s.settleCnt := rfl

theorem mode_afterTick (s u : State) : (s.afterTick u).mode = u.mode := rfl

/-! ### While the counter goes down -/

/-- The block is in mode `m` with `n` ticks to wait, gave no grant in its last step, and has `rest` still to come. -/
structure SettlesIn (n : Nat) (m : ModeCode) (rest : List StepInput) (s : State) : Prop where
  inputs : s.inputs = rest
  mode : s.mode = m
  settleCnt : s.settleCnt = n
  noGrant : s.out.txGrant = false

/-- The step whose input is SET_MODE's byte, in a settled block, shuts the gate for SETTLE_TICKS ticks. -/
theorem step_setMode_settlesIn {s : State} {m : ModeCode} {tick aux : Bool} {rest : List StepInput}
    (h : s.inputs = commandStep (.setMode m) tick aux :: rest) (hc : s.settleCnt = 0) :
    ∃ t, step s = .next t ∧ SettlesIn s.settleTicks m rest t := by
  have hi := nextInput_of_inputs h
  have haccept : AcceptsMode s m :=
    acceptsMode_of_decode (by rw [hi]; rfl) (by rw [hi]; rfl) (decode_encode (.setMode m)) hc
  exact ⟨_, step_of_acceptsMode haccept, congrArg List.tail h, rfl, rfl, rfl⟩

/-- With ticks to wait, a step without reset can accept no SET_MODE and grant no send: only its tick counts. -/
theorem step_of_settlesIn {n : Nat} {m : ModeCode} {i : StepInput} {rest : List StepInput} {s : State}
    (h : SettlesIn n m (i :: rest) s) (hr : i.rst = false) (hn : n ≠ 0) :
    ∃ t, step s = .next t ∧ SettlesIn (ticked i.tick n) m rest t := by
  obtain ⟨hin, hmode, hcnt, -⟩ := h
  have hi := nextInput_of_inputs hin
  have hne : s.settleCnt ≠ 0 := hcnt ▸ hn
  obtain ⟨t, ht⟩ := step_next s
  obtain ⟨u, rfl, hu⟩ := afterTick_of_step ht (by rw [hi, hr]) fun ⟨_, _, _, hc⟩ => hne hc
  refine ⟨_, ht, ?_, hu.mode.trans hmode, ?_, ?_⟩
  · exact congrArg List.tail (hu.inputs.trans hin)
  · rw [settleCnt_afterTick, hi, hcnt]
  · exact Bool.eq_false_iff.2 (mt hu.settled_of_grant hne)

/-- Waiting for the first record's tick and then for the others' is waiting for them all. -/
theorem ticked_sub_ticksIn {i : StepInput} {is : List StepInput} {n : Nat} (h : ticksIn (i :: is) < n) :
    ticksIn is < ticked i.tick n ∧ ticked i.tick n - ticksIn is = n - ticksIn (i :: is) := by
  simp only [ticksIn, ticked] at h ⊢
  split_ifs at h ⊢ <;> omega

/-- As long as fewer ticks come than are to wait, and no reset, the gate stays shut and every tick is counted. -/
theorem run_of_settlesIn {m : ModeCode} {rest : List StepInput} (ins : List StepInput) :
    ∀ {n : Nat} {s : State}, SettlesIn n m (ins ++ rest) s → noReset ins = true → ticksIn ins < n →
      ∃ t : State, (∀ k, Host.Core.run core (ins.length + k) s = Host.Core.run core k t) ∧
        SettlesIn (n - ticksIn ins) m rest t := by
  induction ins with
  | nil => exact fun {n s} h _ _ => ⟨s, fun k => by rw [List.length_nil, Nat.zero_add], h⟩
  | cons i is ih =>
    intro n s h hno hlt
    obtain ⟨hr, hno'⟩ : i.rst = false ∧ noReset is = true := by simpa [noReset] using hno
    obtain ⟨hlt', hleft⟩ := ticked_sub_ticksIn hlt
    obtain ⟨u, hstep, hu⟩ := step_of_settlesIn h hr (by omega)
    obtain ⟨t, hrun, ht⟩ := ih hu hno' hlt'
    refine ⟨t, fun k => ?_, hleft ▸ ht⟩
    rw [List.length_cons, Nat.add_right_comm, run_core_of_step hstep, hrun]

/-- After an accepted SET_MODE the gate stays shut until the SETTLE_TICKS-th tick. -/
theorem run_setMode_settlesIn {s : State} {m : ModeCode} {tick aux : Bool} {ins rest : List StepInput}
    (h : s.inputs = commandStep (.setMode m) tick aux :: (ins ++ rest)) (hc : s.settleCnt = 0)
    (hno : noReset ins = true) (hlt : ticksIn ins < s.settleTicks) :
    ∃ t : State, (∀ k, Host.Core.run core (ins.length + k + 1) s = Host.Core.run core k t) ∧
      SettlesIn (s.settleTicks - ticksIn ins) m rest t := by
  obtain ⟨u, hstep, hu⟩ := step_setMode_settlesIn h hc
  obtain ⟨t, hrun, ht⟩ := run_of_settlesIn ins hu hno hlt
  exact ⟨t, fun k => (run_core_of_step hstep).trans (hrun k), ht⟩

end Sys2Proof.Machine

namespace Sys2Proof.Claims

open Sys2Proof.Machine

/-- Settles O26: while settling only BUSYERR is raised, and otherwise the new state is the mode entered. -/
theorem setModeEntersTheModeOrIsRefused : Obligations.SetModeEntersTheModeOrIsRefused := by
  refine fun m s => ⟨decode_setModeByte m, fun hc => ?_, fun hc hticks => ?_⟩
  · exact ⟨_, exec_setMode_settling m hc, statusByteOf_raise_busyerr s.settling s.flags,
      sameExcept_status rfl rfl rfl rfl, ⟨rfl, rfl, rfl, rfl⟩, rfl, rfl, rfl⟩
  · exact ⟨_, exec_setMode_settled m hc, rfl, rfl, rfl, rfl, busRead_status_enterMode m hticks,
      sameExcept_enterMode s m, rfl, rfl, rfl, rfl⟩

/-- Settles O27: a reset and an accepted SET_MODE load the counter, and every other step only ticks it. -/
theorem settleCounterFollowsResetModeAndTick : Obligations.SettleCounterFollowsResetModeAndTick := by
  refine fun s t h => ⟨fun hrst => ?_, fun ⟨m, hm⟩ => ?_, fun hr hn => ?_, ?_⟩
  · obtain rfl := Host.Outcome.next.inj ((step_of_reset hrst).symm.trans h)
    rfl
  · obtain rfl := Host.Outcome.next.inj ((step_of_acceptsMode hm).symm.trans h)
    rfl
  · obtain ⟨u, rfl, -⟩ := afterTick_of_step h hr hn
    exact settleCnt_afterTick s u
  · rw [busRead_status_settling, settling_iff]

/-- Settles O28: the window shows MODE as it stands, a reset and an accepted SET_MODE set it, and every other step keeps
it. -/
theorem modeLinesChangeOnlyByAcceptedSetModeOrReset : Obligations.ModeLinesChangeOnlyByAcceptedSetModeOrReset := by
  refine fun s t h => ⟨modeA_eq_busRead t, modeB_eq_busRead t, fun hrst => ?_, fun m hm => ?_, fun hr hn => ?_⟩
  · obtain rfl := Host.Outcome.next.inj ((step_of_reset hrst).symm.trans h)
    rfl
  · obtain rfl := Host.Outcome.next.inj ((step_of_acceptsMode hm).symm.trans h)
    rfl
  · obtain ⟨u, rfl, hu⟩ := afterTick_of_step h hr hn
    exact (mode_afterTick s u).trans hu.mode

/-- Settles O29: the gate is shut by the SET_MODE, and every later step but the last tick's keeps it shut. -/
theorem settleGateHoldsUntilTheLastTick : Obligations.SettleGateHoldsUntilTheLastTick := by
  intro s m tick aux ins rest hin hc hno hlt
  obtain ⟨t, hrun, hrest, hmode, hcnt, hgrant⟩ := run_setMode_settlesIn hin hc hno hlt
  refine ⟨t, hrun 0, hrest, hmode, hcnt, ?_, hgrant⟩
  rw [busRead_status_settling, settling_iff, hcnt]
  omega

/-- Settles O30: after one tick less the counter holds 1, which the last tick takes off. -/
theorem settleGateOpensAtTheLastTick : Obligations.SettleGateOpensAtTheLastTick := by
  intro s m tick aux ins rest last hin hc hno hticks hr htick
  obtain ⟨u, hrun, hu⟩ := run_setMode_settlesIn hin hc hno (by omega)
  rw [← hticks, Nat.add_sub_cancel_left] at hu
  obtain ⟨t, hstep, hrest, hmode, hcnt, -⟩ := step_of_settlesIn hu hr Nat.one_ne_zero
  have hzero : t.settleCnt = 0 := by rw [hcnt, htick]; rfl
  refine ⟨t, (hrun 1).trans (run_core_of_step hstep), hrest, hmode, hzero, ?_⟩
  rw [busRead_status_settling, settling_eq_false_iff, hzero]

end Sys2Proof.Claims
end

section
/-! SUPPORT. The AuxFlowGate (42_flowgate.md): what POLL and GSEND leave in STATUS, the grant pulse of a step, and the
commands that do not look at the busy line. -/

namespace Sys2Proof.Machine

open Sys2Proof.Claims

/-! ### What POLL and GSEND show -/

/-- The sample is bit 2 of the STATUS byte (R187). -/
theorem statusByteOf_afterPoll (x : Bool) (f : StatusFlags) (a : Bool) :
    statusByteOf x (f.afterPoll a) = if a = true then statusByteOf x f ||| 0x04 else statusByteOf x f &&& 0xFB := by
  obtain ⟨b, c, d, e, g, h⟩ := f
  revert x a b c d e g h
  decide

/-- The sample and the verdict are bits 2 and 3 of the STATUS byte (R188). -/
theorem statusByteOf_afterGsend (x : Bool) (f : StatusFlags) (a g : Bool) :
    statusByteOf x (f.afterGsend a g) =
      statusByteOf x f &&& 0xF3 ||| (if a = true then 0x04 else 0x00) ||| (if g = true then 0x08 else 0x00) := by
  obtain ⟨b, c, d, e, k, h⟩ := f
  revert x a g b c d e k h
  decide

theorem busRead_mode_eq_program_iff (s : State) : s.busRead 0x1C = 0x03 ↔ s.mode = programMode := by
  have setWidth_eq : ∀ m : ModeCode, m.setWidth 8 = (0x03 : Byte) ↔ m = programMode := by decide
  exact setWidth_eq s.mode

/-! ### The grant pulse -/

/-- A step whose operation writes GSEND's byte samples, decides and then ticks. -/
theorem step_gsend {s : State} (hr : s.nextInput.rst = false) (hw : WritesCmd s.nextInput 0x80) :
    step s = .next (s.afterTick s.beginStep.gatedSend) := by
  rw [step_command hr hw (decode_encode .gsend) rfl]
  exact congrArg _ (applyTick_afterTick rfl)

/-- The step of a GSEND pulses by the grant condition on the state before it (R188, R210). -/
theorem txGrant_of_gsend {s t : State} (h : step s = .next t) (hr : s.nextInput.rst = false)
    (hw : WritesCmd s.nextInput 0x80) : t.out.txGrant = grantOk s.sampleAux s.settleCnt s.mode := by
  obtain rfl := Host.Outcome.next.inj ((step_gsend hr hw).symm.trans h)
  rfl

theorem eq_gsend_of_txGrant {s u : State} {i : Instr} (hi : isSetMode i = false) (h : exec i s.beginStep = .next u)
    (hg : u.out.txGrant = true) : i = .gsend := by
  cases i <;> injection h with h <;> subst h
  case gsend => rfl
  case setMode m => cases hi
  case nop | pack | packPersist | unpack | reqRead | reqReset | poll | clrErr => cases hg

/-- Only the step of a GSEND pulses (R191). -/
theorem writesGsend_of_txGrant {s t : State} (h : step s = .next t) (hg : t.out.txGrant = true) :
    s.nextInput.rst = false ∧ WritesCmd s.nextInput 0x80 := by
  cases stepCase_of_step h with
  | command v i u hr ho hd hi hu e =>
    subst e
    obtain rfl := eq_gsend_of_txGrant hi hu hg
    obtain rfl := encode_of_decode hd
    exact ⟨hr, ho⟩
  | write off v _ _ _ e =>
    subst e
    simp [State.afterTick] at hg
  | reset _ e | idle _ _ e | read _ _ _ e | reservedByte _ _ _ _ _ e | modeAccepted _ _ _ _ _ _ e
  | modeRefused _ _ _ _ _ _ e =>
    subst e
    cases hg

/-! ### What does not look at the busy line -/

theorem requestMode_setEnv (s : State) (m : ModeCode) (ins : List StepInput) (n : Nat) :
    (s.setEnv ins n).requestMode m = (s.requestMode m).setEnv ins n := by
  cases hset : s.settling with
  | true => rw [requestMode_settling m hset, requestMode_settling m (s := s.setEnv ins n) hset]; rfl
  | false => rw [requestMode_settled m hset, requestMode_settled m (s := s.setEnv ins n) hset]; rfl

/-- The block looks at the coming inputs in `sample_aux` only: every other command carries them through. -/
theorem exec_setEnv {i : Instr} (hpoll : i ≠ .poll) (hgsend : i ≠ .gsend) (s : State) (ins : List StepInput) (n : Nat) :
    exec i (s.setEnv ins n) = afterNext (exec i s) (·.setEnv ins n) := by
  cases i with
  | poll => exact absurd rfl hpoll
  | gsend => exact absurd rfl hgsend
  | setMode m => exact congrArg _ (requestMode_setEnv s m ins n)
  | nop | pack | packPersist | unpack | reqRead | reqReset | clrErr => rfl

theorem writeReg_setEnv (s : State) (r : WinReg) (v : Byte) (ins : List StepInput) (n : Nat) :
    (s.setEnv ins n).writeReg r v = (s.writeReg r v).setEnv ins n := by
  cases r <;> rfl

/-- So does every host operation that writes neither POLL's nor GSEND's byte to CMD. -/
theorem perform_setEnv {op : Option HostOp} (hpoll : op ≠ some (.write cmdOffset 0x70))
    (hgsend : op ≠ some (.write cmdOffset 0x80)) (s : State) (ins : List StepInput) (n : Nat) :
    perform op (s.setEnv ins n) = afterNext (perform op s) (·.setEnv ins n) := by
  rcases perform_cases op s with ⟨rfl, -⟩ | ⟨off, rfl, -⟩ | ⟨off, v, rfl, hne, hq⟩ | ⟨v, i, rfl, hd, hq⟩ |
    ⟨v, why, rfl, hd, hq⟩
  · rfl
  · rfl
  · rw [hq]
    exact (busWrite_of_ne v _ hne).trans (congrArg _ (writeReg_setEnv s _ v ins n))
  · have hv := encode_of_decode hd
    rw [hq, ← exec_setEnv (by rintro rfl; exact hpoll (hv ▸ rfl)) (by rintro rfl; exact hgsend (hv ▸ rfl))]
    exact executeByte_command hd _
  · rw [hq]
    exact executeByte_reserved hd _

/-- The next state of a step without POLL and GSEND, from the record's operation and tick alone. -/
theorem step_of_ignoresAux {s u : State} {i : StepInput} (rest : List StepInput) (hr : i.rst = false)
    (hpoll : ¬ WritesCmd i 0x70) (hgsend : ¬ WritesCmd i 0x80) (hu : perform i.op s.beginStep = .next u) :
    step { s with inputs := i :: rest } =
      .next ((u.applyTick i.tick (s.acceptsMode i.op)).setEnv rest (s.draw + 1)) := by
  have hp := perform_setEnv hpoll hgsend s.beginStep (i :: rest) s.draw
  rw [hu] at hp
  refine (step_eq_of_perform (s := s.setEnv (i :: rest) s.draw) hr hp).trans (congrArg _ ?_)
  rw [applyTick_eq, applyTick_eq]
  rfl

end Sys2Proof.Machine

namespace Sys2Proof.Claims

open Sys2Proof.Machine

/-- Settles O32: CLEAR is bit 2 of STATUS, and only STATUS shows it. -/
theorem pollCopiesTheLineIntoClear : Obligations.PollCopiesTheLineIntoClear :=
  ⟨decode_encode .poll, fun s => ⟨s.poll, rfl, statusByteOf_afterPoll s.settling s.flags s.sampleAux,
    sameExcept_status rfl rfl rfl rfl, ⟨rfl, rfl, rfl, rfl⟩, rfl⟩⟩

/-- Settles O33: the verdict is the grant condition, and CLEAR and GRANT are bits 2 and 3 of STATUS. -/
theorem gsendGrantsExactlyWhenTheConditionHolds : Obligations.GsendGrantsExactlyWhenTheConditionHolds := by
  refine ⟨decode_encode .gsend, fun s => ⟨s.gatedSend, grantOk s.sampleAux s.settleCnt s.mode, rfl, ?_,
    statusByteOf_afterGsend s.settling s.flags s.sampleAux _, rfl, sameExcept_status rfl rfl rfl rfl,
    ⟨rfl, rfl, rfl, rfl⟩⟩⟩
  rw [ne_eq, busRead_mode_eq_program_iff]
  exact grantOk_iff s.sampleAux s.settleCnt s.mode

/-- Settles O34: a pulse comes from a GSEND, and a GSEND pulses by the grant condition. -/
theorem txGrantPulsesOnlyInAGrantingGsend : Obligations.TxGrantPulsesOnlyInAGrantingGsend := by
  refine fun s t h => ⟨fun hg => ?_, fun ⟨hr, hw, hverdict⟩ => ?_⟩
  · obtain ⟨hr, hw⟩ := writesGsend_of_txGrant h hg
    rw [txGrant_of_gsend h hr hw] at hg
    exact ⟨hr, hw, (grantOk_iff s.sampleAux s.settleCnt s.mode).1 hg⟩
  · rw [txGrant_of_gsend h hr hw]
    exact (grantOk_iff s.sampleAux s.settleCnt s.mode).2 hverdict

/-- Settles O35: a reset ignores the record, and a step without POLL and GSEND looks at its operation and tick alone. -/
theorem auxLevelReachesOnlyPollAndGsend : Obligations.AuxLevelReachesOnlyPollAndGsend := by
  intro s i rest a b h
  by_cases hr : i.rst = true
  · have hstep := fun c : Bool => step_of_reset (s := { s with inputs := { i with aux := c } :: rest }) hr
    exact ⟨_, hstep a, hstep b⟩
  · obtain ⟨hpoll, hgsend⟩ := h.resolve_left hr
    have hnoReset : i.rst = false := Bool.eq_false_iff.2 hr
    obtain ⟨u, hu⟩ := perform_next i.op s.beginStep
    have hstep := fun c : Bool => step_of_ignoresAux (i := { i with aux := c }) rest hnoReset hpoll hgsend hu
    exact ⟨_, hstep a, hstep b⟩

end Sys2Proof.Claims
end

section
/-! SUPPORT. The sticky error flags (60_exceptions.md): the one error of a step, said once in `State.stepError`, what it does
to the flags, and the order of a step. -/

namespace Sys2Proof.Machine

open Sys2Proof.Claims

/-! ### The error flags in STATUS -/

/-- The STATUS bit of an error flag (R206). -/
def ErrorCause.bit : ErrorCause → Nat
  | .decerr => 4
  | .busyerr => 5
  | .cmderr => 6

/-- The stored flag of an error. -/
def StatusFlags.error (f : StatusFlags) : ErrorCause → Bool
  | .decerr => f.decerr
  | .busyerr => f.busyerr
  | .cmderr => f.cmderr

theorem busRead_status_error (s : State) (e : ErrorCause) : (s.busRead 0x1D).getLsbD e.bit = s.flags.error e := by
  obtain ⟨-, -, -, -, hdec, hbusy, hcmd, -⟩ := statusByteOf_getLsbD s.settling s.flags
  cases e with
  | decerr => exact hdec
  | busyerr => exact hbusy
  | cmderr => exact hcmd

theorem exists_errorCause_of_bit {k : Nat} (hk : k = 4 ∨ k = 5 ∨ k = 6) : ∃ e : ErrorCause, e.bit = k := by
  rcases hk with rfl | rfl | rfl
  · exact ⟨.decerr, rfl⟩
  · exact ⟨.busyerr, rfl⟩
  · exact ⟨.cmderr, rfl⟩

theorem StatusFlags.error_raise (f : StatusFlags) (c e : ErrorCause) :
    (f.raise c).error e = (f.error e || decide (c = e)) := by
  cases c <;> cases e <;> simp [StatusFlags.raise, StatusFlags.error]

/-! ### The error of a step -/

/-- The byte that a host operation writes to CMD, if it does. -/
def cmdByte : Option HostOp → Option Byte
  | some (.write off v) => if off = cmdOffset then some v else none
  | some (.read _) => none
  | none => none

/-- The error that a command raises in the state `s`. -/
def State.commandError (s : State) : Instr → Option ErrorCause
  | .unpack => if frameValid s.frm then none else some .decerr
  | .setMode _ => if s.settling then some .busyerr else none
  | .nop | .pack | .packPersist | .reqRead | .reqReset | .poll | .gsend | .clrErr => none

/-- The error of a decoded byte: a reserved one always has one. -/
def State.decodedError (s : State) : Decoded → Option ErrorCause
  | .command i => s.commandError i
  | .reserved _ => some .cmderr

/-- The error that the host operation of the next step raises, at most one (R206, R209). -/
def State.stepError (s : State) : Option ErrorCause :=
  (cmdByte s.nextInput.op).bind fun v => s.decodedError (decode v)

theorem cmdByte_eq_some_iff (op : Option HostOp) (v : Byte) : cmdByte op = some v ↔ op = some (.write cmdOffset v) := by
  rcases op with _ | off | ⟨off, w⟩
  · simp [cmdByte]
  · simp [cmdByte]
  · by_cases h : off = cmdOffset <;> simp [cmdByte, h]

theorem stepError_eq_some_iff (s : State) (e : ErrorCause) :
    s.stepError = some e ↔ ∃ v, WritesCmd s.nextInput v ∧ s.decodedError (decode v) = some e := by
  rw [State.stepError, Option.bind_eq_some_iff]
  exact exists_congr fun v => and_congr_left' (cmdByte_eq_some_iff s.nextInput.op v)

theorem stepError_of_cmdByte {s : State} {v : Byte} (ho : s.nextInput.op = some (.write cmdOffset v)) :
    s.stepError = s.decodedError (decode v) := by
  rw [State.stepError, (cmdByte_eq_some_iff _ v).2 ho]
  rfl

theorem stepError_of_noCmdByte {s : State} (ho : cmdByte s.nextInput.op = none) : s.stepError = none := by
  rw [State.stepError, ho]
  rfl

theorem decode_eq_command_iff (v : Byte) (i : Instr) : decode v = .command i ↔ v = encode i :=
  ⟨fun h => (encode_of_decode h).symm, fun h => h ▸ decode_encode i⟩

theorem decodedError_eq_decerr_iff (s : State) (d : Decoded) :
    s.decodedError d = some .decerr ↔ d = .command .unpack ∧ frameValid s.frm = false := by
  rcases d with i | why
  · cases i <;> simp [State.decodedError, State.commandError]
  · simp [State.decodedError]

theorem decodedError_eq_busyerr_iff (s : State) (d : Decoded) :
    s.decodedError d = some .busyerr ↔ (∃ m, d = .command (.setMode m)) ∧ s.settling = true := by
  rcases d with i | why
  · cases i <;> simp [State.decodedError, State.commandError]
  · simp [State.decodedError]

theorem decodedError_eq_cmderr_iff (s : State) (d : Decoded) :
    s.decodedError d = some .cmderr ↔ d.command? = none := by
  rcases d with i | why
  · cases i <;> simp [State.decodedError, State.commandError, Decoded.command?]
  · simp [State.decodedError, Decoded.command?]

/-- DECERR's cause (R206, R42). -/
theorem stepError_eq_decerr_iff (s : State) :
    s.stepError = some .decerr ↔ WritesCmd s.nextInput 0x30 ∧ s.busRead 0x00 ≠ 0xC0 := by
  have hmarker : frameValid s.frm = false ↔ s.busRead 0x00 ≠ 0xC0 := by
    rw [← Bool.not_eq_true, frameValid_iff]
    rfl
  simp only [stepError_eq_some_iff, decodedError_eq_decerr_iff, decode_eq_command_iff, hmarker]
  exact ⟨fun ⟨_, hw, rfl, hm⟩ => ⟨hw, hm⟩, fun ⟨hw, hm⟩ => ⟨_, hw, rfl, hm⟩⟩

/-- BUSYERR's cause (R206, R43). -/
theorem stepError_eq_busyerr_iff (s : State) :
    s.stepError = some .busyerr ↔ (∃ m, WritesSetMode s.nextInput m) ∧ s.settleCnt ≠ 0 := by
  simp only [stepError_eq_some_iff, decodedError_eq_busyerr_iff, decode_eq_command_iff, settling_iff, encode_setMode]
  constructor
  · rintro ⟨_, hw, ⟨m, rfl⟩, hc⟩
    exact ⟨⟨m, hw⟩, hc⟩
  · rintro ⟨⟨m, hw⟩, hc⟩
    exact ⟨_, hw, ⟨m, rfl⟩, hc⟩

/-- CMDERR's cause (R206, R44). -/
theorem stepError_eq_cmderr_iff (s : State) :
    s.stepError = some .cmderr ↔ ∃ v, WritesCmd s.nextInput v ∧ ReservedDigits v := by
  simp only [stepError_eq_some_iff, decodedError_eq_cmderr_iff, command?_eq_none_iff]

/-! ### The error flags after a step -/

@[simp] theorem flags_afterTick (s u : State) : (s.afterTick u).flags = u.flags := rfl

@[simp] theorem flags_flagError (s : State) (e : ErrorCause) : (s.flagError e).flags = s.flags.raise e := rfl

@[simp] theorem flags_enterMode (s : State) (m : ModeCode) : (s.enterMode m).flags = s.flags := rfl

theorem step_clrErr {s : State} (hr : s.nextInput.rst = false) (hw : WritesCmd s.nextInput 0x90) :
    step s = .next (s.afterTick (s.beginStep.setFlags s.flags.clearErrors)) := by
  rw [step_command hr hw (decode_encode .clrErr) rfl]
  exact congrArg _ (applyTick_afterTick rfl)

theorem error_clearErrors (f : StatusFlags) (e : ErrorCause) : f.clearErrors.error e = false := by
  cases e <;> rfl

theorem error_allClear (e : ErrorCause) : StatusFlags.allClear.error e = false := by
  cases e <;> rfl

/-- CLR_ERR and reset leave no error flag (R212). -/
theorem step_clears_errors {s t : State} (h : step s = .next t)
    (hclear : s.nextInput.rst = true ∨ WritesCmd s.nextInput 0x90) (e : ErrorCause) : t.flags.error e = false := by
  by_cases hrst : s.nextInput.rst = true
  · obtain rfl := Host.Outcome.next.inj ((step_of_reset hrst).symm.trans h)
    exact error_allClear e
  · obtain rfl := Host.Outcome.next.inj
      ((step_clrErr (Bool.eq_false_iff.2 hrst) (hclear.resolve_left hrst)).symm.trans h)
    exact error_clearErrors s.flags e

/-- A command other than SET_MODE and CLR_ERR adds its error to the flags. -/
theorem error_of_exec {s u : State} {i : Instr} (hmode : isSetMode i = false) (hclr : i ≠ .clrErr)
    (hu : exec i s.beginStep = .next u) (e : ErrorCause) :
    u.flags.error e = (s.flags.error e || decide (s.commandError i = some e)) := by
  cases i <;> injection hu with hu <;> subst hu
  case setMode m => cases hmode
  case clrErr => exact absurd rfl hclr
  case unpack =>
    cases hv : frameValid s.frm <;> cases e <;>
      simp [State.commandError, State.unpackFrame, StatusFlags.afterUnpack, StatusFlags.error, hv]
  case poll | gsend => cases e <;> exact (Bool.or_false _).symm
  case nop | pack | packPersist | reqRead | reqReset => exact (Bool.or_false _).symm

/-- A step that clears no error flag adds its error to the flags and keeps the others (R207, R212). -/
theorem step_adds_error {s t : State} (h : step s = .next t) (hr : s.nextInput.rst = false)
    (hclr : ¬ WritesCmd s.nextInput 0x90) (e : ErrorCause) :
    t.flags.error e = (s.flags.error e || decide (s.stepError = some e)) := by
  cases stepCase_of_step h with
  | reset hrst => rw [hr] at hrst; cases hrst
  | idle _ ho ht | read _ _ ho ht =>
    rw [stepError_of_noCmdByte (by rw [ho]; rfl), ht]
    exact (Bool.or_false _).symm
  | write off v _ hne ho ht =>
    rw [stepError_of_noCmdByte (by rw [ho]; exact if_neg hne), ht]
    simp
  | reservedByte v why _ ho hd ht =>
    rw [stepError_of_cmdByte ho, hd, ht]
    simp [State.decodedError, StatusFlags.error_raise]
  | modeAccepted v m _ ho hd hc ht =>
    rw [stepError_of_cmdByte ho, hd, ht]
    simp [State.decodedError, State.commandError, State.settling, hc]
  | modeRefused v m _ ho hd hc ht =>
    rw [stepError_of_cmdByte ho, hd, ht]
    simp [State.decodedError, State.commandError, StatusFlags.error_raise, State.settling, hc]
  | command v i u _ ho hd hi hu ht =>
    rw [stepError_of_cmdByte ho, hd, ht]
    refine error_of_exec hi ?_ hu e
    rintro rfl
    obtain rfl := encode_of_decode hd
    exact hclr ho

/-- Outside reset, a flag that was 0 is 1 after the step exactly when it is the step's error (R206). -/
theorem error_rises_iff {s t : State} {e : ErrorCause} (h : step s = .next t) (hr : s.nextInput.rst = false)
    (hzero : s.flags.error e = false) : t.flags.error e = true ↔ s.stepError = some e := by
  by_cases hclr : WritesCmd s.nextInput 0x90
  · have hnone : s.stepError = none := by
      rw [stepError_of_cmdByte hclr, (decode_eq_command_iff 0x90 .clrErr).2 rfl]
      rfl
    simp [step_clears_errors h (.inr hclr), hnone]
  · simp [step_adds_error h hr hclr, hzero]

/-- Whatever the step, a flag that rises in it is the step's error. -/
theorem stepError_of_rise {s t : State} {e : ErrorCause} (h : step s = .next t) (hzero : s.flags.error e = false)
    (hone : t.flags.error e = true) : s.stepError = some e := by
  have hr : s.nextInput.rst = false :=
    Bool.eq_false_iff.2 fun hrst => Bool.false_ne_true ((step_clears_errors h (.inl hrst) e).symm.trans hone)
  exact (error_rises_iff h hr hzero).1 hone

/-! ### The step of a reserved byte -/

theorem exists_reserved_of_digits {v : Byte} (h : ReservedDigits v) : ∃ why, decode v = .reserved why := by
  have hnone := (command?_eq_none_iff v).2 h
  cases hd : decode v with
  | command i => rw [hd] at hnone; cases hnone
  | reserved why => exact ⟨why, rfl⟩

theorem step_reservedByte {s : State} {v : Byte} (hr : s.nextInput.rst = false) (hw : WritesCmd s.nextInput v)
    (hv : ReservedDigits v) : step s = .next (s.afterTick (s.beginStep.flagError .cmderr)) := by
  obtain ⟨why, hd⟩ := exists_reserved_of_digits hv
  have hop : s.nextInput.op = some (.write cmdOffset v) := hw
  refine step_of_perform hr ?_ ?_ rfl
  · rw [hop]
    exact executeByte_reserved hd s.beginStep
  · rw [hop]
    exact acceptsMode_reserved s hd

/-- Raising CMDERR shows in bit 6 of the STATUS byte only. -/
theorem getLsbD_raise_cmderr_of_ne (x : Bool) (f : StatusFlags) {k : Nat} (hk : k ≠ 6) :
    (statusByteOf x (f.raise .cmderr)).getLsbD k = (statusByteOf x f).getLsbD k := by
  have hbit : (0x40 : Byte) = BitVec.twoPow 8 6 := by decide
  simp [statusByteOf_raise_cmderr, hbit, hk.symm]

/-! ### The order of a step -/

theorem commandOf_eq_some_iff (op : Option HostOp) (i : Instr) :
    commandOf op = some i ↔ op = some (.write cmdOffset (encode i)) := by
  rcases op with _ | off | ⟨off, v⟩
  · simp [commandOf]
  · simp [commandOf]
  · by_cases h : off = cmdOffset
    · subst h
      have hcommand : (decode v).command? = some i ↔ decode v = .command i := by
        cases decode v <;> simp [Decoded.command?]
      simp [commandOf_cmd, hcommand, decode_eq_command_iff]
    · simp [commandOf_other v h, h]

/-- What drops the tick is an accepted SET_MODE as R161 says it. -/
theorem acceptsMode_eq_true_iff {s : State} (hr : s.nextInput.rst = false) :
    s.acceptsMode s.nextInput.op = true ↔ ∃ m, AcceptsMode s m := by
  refine ⟨fun h => ?_, fun ⟨m, _, hw, hc⟩ => ?_⟩
  · unfold State.acceptsMode at h
    cases hcommand : commandOf s.nextInput.op with
    | none => simp [hcommand] at h
    | some i =>
      obtain ⟨hi, hset⟩ : isSetMode i = true ∧ s.settling = false := by simpa [hcommand] using h
      obtain ⟨m, rfl⟩ := eq_setMode_of_isSetMode hi
      have hop := (commandOf_eq_some_iff _ _).1 hcommand
      exact ⟨m, acceptsMode_of_decode hr hop (decode_encode _) ((settling_eq_false_iff s).1 hset)⟩
  · have hop : s.nextInput.op = some (.write cmdOffset (0x60 + m.setWidth 8)) := hw
    rw [hop, acceptsMode_command s (decode_setModeByte m), (settling_eq_false_iff s).2 hc]
    rfl

theorem applyTick_of_accepted (s : State) (tick : Bool) : s.applyTick tick true = s := by
  cases tick <;> rfl

theorem applyTick_of_notAccepted (s : State) (tick : Bool) :
    s.applyTick tick false = { s with settleCnt := ticked tick s.settleCnt } := by
  cases tick <;> rfl

end Sys2Proof.Machine

namespace Sys2Proof.Claims

open Sys2Proof.Machine

/-- Settles O36: every step has a next state, so every run goes on, by induction on its length. -/
theorem theBlockNeverStops : Obligations.TheBlockNeverStops := by
  intro s k
  induction k generalizing s with
  | zero => exact ⟨s, rfl⟩
  | succ k ih =>
    obtain ⟨u, hstep⟩ := step_next s
    obtain ⟨t, hrun⟩ := ih u
    exact ⟨t, (run_core_of_step hstep).trans hrun⟩

/-- Settles O37: CLR_ERR and reset leave no error flag, and every other step only adds to them. -/
theorem stickyFlagsClearOnlyByClrErrOrReset : Obligations.StickyFlagsClearOnlyByClrErrOrReset := by
  intro s t h k hk
  obtain ⟨e, rfl⟩ := exists_errorCause_of_bit hk
  simp only [busRead_status_error]
  refine ⟨fun hclear => step_clears_errors h hclear e, fun hr hclr hone => ?_⟩
  rw [step_adds_error h hr hclr, hone, Bool.true_or]

/-- Settles O38: a flag rises exactly when it is the step's error, which is each flag's cause read off. -/
theorem errorFlagsRiseExactlyByTheirCauses : Obligations.ErrorFlagsRiseExactlyByTheirCauses := by
  intro s t h hr
  rw [← stepError_eq_decerr_iff, ← stepError_eq_busyerr_iff, ← stepError_eq_cmderr_iff]
  have hrises (e : ErrorCause) (hzero : (s.busRead 0x1D).getLsbD e.bit = false) :
      (t.busRead 0x1D).getLsbD e.bit = true ↔ s.stepError = some e := by
    rw [busRead_status_error] at hzero ⊢
    exact error_rises_iff h hr hzero
  exact ⟨hrises .decerr, hrises .busyerr, hrises .cmderr⟩

/-- Settles O39: the step raises CMDERR and then ticks, and the tick shows in SETTLING only. -/
theorem reservedByteStepKeepsTheTick : Obligations.ReservedByteStepKeepsTheTick := by
  intro s v hr hw hv
  refine ⟨_, step_reservedByte hr hw hv, sameExcept_status rfl rfl rfl rfl, ?_, fun k hk hne => ?_, rfl, rfl,
    ⟨rfl, rfl, rfl⟩⟩
  · exact busRead_status_error _ .cmderr
  · rw [busRead_status_afterTick s _ hk]
    exact getLsbD_raise_cmderr_of_ne s.settling s.flags hne

/-- Settles O40: the flags that rise are each the one error of the step. -/
theorem aStepRaisesAtMostOneError : Obligations.AStepRaisesAtMostOneError := by
  intro s t h j k hj hk
  obtain ⟨e, rfl⟩ := exists_errorCause_of_bit hj
  obtain ⟨e', rfl⟩ := exists_errorCause_of_bit hk
  simp only [busRead_status_error]
  intro hzero hone hzero' hone'
  have herror := (stepError_of_rise h hzero hone).symm.trans (stepError_of_rise h hzero' hone')
  rw [Option.some.inj herror]

/-- Settles O45: a step without reset is its operation and then the tick, which is dropped exactly by an accepted
SET_MODE. -/
theorem stepOrderIsResetThenOperationThenTick : Obligations.StepOrderIsResetThenOperationThenTick := by
  refine fun s => ⟨step_of_reset, fun hr => ?_⟩
  obtain ⟨u, hu⟩ := perform_next s.nextInput.op s.beginStep
  refine ⟨u, hu, fun haccept => ?_, fun hn => ?_⟩
  · rw [step_eq_of_perform hr hu, (acceptsMode_eq_true_iff hr).2 haccept, applyTick_of_accepted]
  · rw [step_eq_of_perform hr hu, Bool.eq_false_iff.2 (mt (acceptsMode_eq_true_iff hr).1 hn),
      applyTick_of_notAccepted]

end Sys2Proof.Claims
end

section
/-! SUPPORT. Reset (70_reset_and_hazards.md): the step of a reset record and the state it leaves, and what each command does
in a block that settles in Normal, as it does after a reset. -/

namespace Sys2Proof.Machine

open Sys2Proof.Claims

/-! ### The step of a reset record -/

/-- Of its record a reset step keeps nothing: the next state does not name it (R230). -/
theorem step_resetRecord (s : State) {i : StepInput} (rest : List StepInput) (h : i.rst = true) :
    step { s with inputs := i :: rest } = .next (s.takeReset.setEnv rest (s.draw + 1)) :=
  step_of_reset (s := { s with inputs := i :: rest }) h

/-- With SETTLE_TICKS at least 1 (R7), STATUS shows SETTLING and no flag after a reset (R51). -/
theorem busRead_status_takeReset {s : State} (h : 1 ≤ s.settleTicks) : s.takeReset.busRead 0x1D = 0x01 := by
  have hset : s.takeReset.settling = true := (settling_iff s.takeReset).2 (Nat.one_le_iff_ne_zero.1 h)
  have hflags : s.takeReset.flags = StatusFlags.allClear := rfl
  rw [busRead_status, hset, hflags]
  decide

/-- Both lines are low in Normal (R50, R91). -/
theorem modeLines_of_normal {s : State} (h : s.mode = 0b00) : s.modeA = false ∧ s.modeB = false := by
  rw [State.modeA, State.modeB, h]
  decide

/-- A reset step shuts the gate in Normal for SETTLE_TICKS ticks (R231). -/
theorem step_reset_settlesIn {s : State} {i : StepInput} {rest : List StepInput} (h : s.inputs = i :: rest)
    (hr : i.rst = true) : ∃ t, step s = .next t ∧ SettlesIn s.settleTicks 0 rest t := by
  have hrst : s.nextInput.rst = true := by rw [nextInput_of_inputs h, hr]
  exact ⟨_, step_of_reset hrst, congrArg List.tail h, rfl, rfl, rfl⟩

/-! ### The commands in a block that settles -/

theorem grantOk_of_settling (a : Bool) {n : Nat} (m : ModeCode) (h : n ≠ 0) : grantOk a n m = false := by
  refine Bool.eq_false_iff.2 fun hgrant => ?_
  obtain ⟨-, hzero, -⟩ := (grantOk_iff a n m).1 hgrant
  exact h hzero

/-- A refused SET_MODE shows BUSYERR. -/
theorem busRead_status_busyerr (s : State) : ((s.flagError .busyerr).busRead 0x1D).getLsbD 5 = true :=
  (busRead_status_error _ .busyerr).trans rfl

/-- GSEND drops while the block settles: no pulse, and GRANT 0 (R189). -/
theorem gatedSend_drops {s : State} (h : s.settleCnt ≠ 0) :
    s.gatedSend.out.txGrant = false ∧ (s.gatedSend.busRead 0x1D).getLsbD 3 = false := by
  have hverdict := grantOk_of_settling s.sampleAux s.mode h
  exact ⟨hverdict, (busRead_status_grant _).trans hverdict⟩

/-- CLEAR is the sampled level after a POLL (R187). -/
theorem busRead_status_poll (s : State) : (s.poll.busRead 0x1D).getLsbD 2 = s.nextInput.aux :=
  busRead_status_clear s.poll

/-- A codec command does the same with no settle delay running (R136). -/
theorem exec_codec_settled {c : Instr} (hc : c ∈ [Instr.nop, .pack, .packPersist, .unpack, .reqRead, .reqReset, .clrErr])
    (s : State) : ∃ u, exec c s = .next u ∧ exec c (s.setSettleCnt 0) = .next (u.setSettleCnt 0) := by
  obtain ⟨u, hu, hmode, -, hsettled⟩ := codecCommandsIgnoreModeAndSettle c hc s s.mode 0
  have hkeep : u.setMode s.mode = u := congrArg u.setMode hmode.symm
  exact ⟨u, hu, hkeep ▸ hsettled⟩

end Sys2Proof.Machine

namespace Sys2Proof.Claims

open Sys2Proof.Machine

/-- Settles O48: the next state is made of the reset values and the records that follow, so no part of the record shows
in it. -/
theorem resetStepPutsTheResetValues : Obligations.ResetStepPutsTheResetValues := by
  intro s i rest hr hticks
  obtain ⟨hmodeA, hmodeB⟩ := modeLines_of_normal (s := s.takeReset) rfl
  exact ⟨_, step_resetRecord s rest hr, rfl, rfl, hmodeA, hmodeB, rfl, busRead_status_takeReset hticks, rfl, rfl, rfl,
    rfl, fun op tick aux => step_resetRecord s rest rfl⟩

/-- Settles O52: the reset shuts the gate in Normal, the steps after it keep it shut, and there each command does what its
own rule says of a block that settles. -/
theorem afterResetTheGateIsShut : Obligations.AfterResetTheGateIsShut := by
  intro s i ins rest hin hr hno hlt
  obtain ⟨u, hstep, hu⟩ := step_reset_settlesIn hin hr
  obtain ⟨t, hrun, hrest, hmode, hcnt, -⟩ := run_of_settlesIn ins hu hno hlt
  have hnormal : t.busRead 0x1C = 0x00 := by rw [busRead_mode, hmode]; rfl
  have hne : t.settleCnt ≠ 0 := by omega
  refine ⟨t, (run_core_of_step hstep).trans (hrun 0), hrest, hnormal, hcnt, fun m => ?_, ?_, ?_, fun c hc => ?_⟩
  · exact ⟨_, exec_setMode_settling m hne, busRead_status_busyerr t, hnormal, rfl⟩
  · exact ⟨t.gatedSend, rfl, gatedSend_drops hne⟩
  · exact ⟨t.poll, rfl, by rw [busRead_status_poll]⟩
  · exact exec_codec_settled hc t

end Sys2Proof.Claims
end
